-- ==== Sys2Proof/Word.lean ====
section
/-! DEFINITION. The word types of the block and nothing else (00_scope.md R11). -/

namespace Sys2Proof

/-- A byte of the buffer memory or of a packet's payload (10_state.md R24, 30_encoding.md R80). -/
abbrev Byte := BitVec 8

/-- A 64-bit operand word `OP[k]` or result word `RES[k]` (30_encoding.md R80, R85). -/
abbrev Op := BitVec 64

end Sys2Proof
end

