-- ==== Sys2Proof/Machine/Bytes.lean ====
section
/-! DEFINITION. Byte lists of unsigned values and back, in both byte orders (00_scope.md R12). -/

namespace Sys2Proof.Machine

/-- `LE_n(v)`: the `n` bytes of `v`, byte `i` being `v[8i+7:8i]` (00_scope.md R12). -/
def leBytes : Nat → Nat → List Byte
  | 0, _ => []
  | n + 1, v => BitVec.ofNat 8 v :: leBytes n (v / 256)

/-- `BE_n(v)`: the `n` bytes of `v`, the most significant first (00_scope.md R12). -/
def beBytes (n v : Nat) : List Byte := (leBytes n v).reverse

/-- `FromLE(bs)`, the inverse of `LE_n` (00_scope.md R12). -/
def fromLE : List Byte → Nat
  | [] => 0
  | b :: bs => b.toNat + 256 * fromLE bs

/-- `FromBE(bs)`, the inverse of `BE_n` (00_scope.md R12). -/
def fromBE (bs : List Byte) : Nat := fromLE bs.reverse

end Sys2Proof.Machine
end

