-- ==== Sys2Proof/Config.lean ====
section
/-! DEFINITION. What the spec leaves to an implementation or to the environment (00_scope.md R9, R17).
None of the opaque constants has a body, so no proof can learn its value. -/

namespace Sys2Proof

/-- The open part of `MEM_BYTES`: how many bytes the buffer memory has beyond 8. Its type carries the
constraint of 00_scope.md R9, `8 <= MEM_BYTES <= 2^31` (log 7). -/
opaque Config.memExtra : Fin 2147483641

/-- `MEM_BYTES`, the size in bytes of the physical buffer memory (00_scope.md R9, decision D6). -/
def Config.memBytes : Nat := Config.memExtra.val + 8

/-- `FP_MIX`, the fingerprint mixing hash before truncation: an uninterpreted total function of the
fingerprint width and the payload bytes (00_scope.md R9, 41_fingerprint.md R130; log 8). -/
opaque Config.fpMix : Nat → List Byte → BitVec 64

/-- The value of the `k`-th draw, a free value under no law (00_scope.md R17); a draw of `N` bits
takes its low `N` bits (log 4). -/
opaque Config.draw : Nat → BitVec 64

end Sys2Proof
end

