-- ==== Sys2Proof/Syntax.lean ====
section
/-! DEFINITION. Command packets and the commands themselves (30_encoding.md R80, R82, R86): one
constructor of `Instr` per row of the opcode map. An operand word is carried whole; which of its bits
a command reads is said in Machine/Operands.lean (30_encoding.md R83). -/

namespace Sys2Proof

/-- A command packet, the triple `(CW, OP, DATA)` of 30_encoding.md R80. -/
structure Packet where
  /-- `CW`, the command word. -/
  cw : BitVec 32
  /-- `OP`, the operand words, `OP[0]` first. -/
  op : List Op
  /-- `DATA`, the byte payload. -/
  data : List Byte
  deriving DecidableEq, Repr

/-- The refusal causes of 60_exceptions.md R265. -/
inductive Cause where
  /-- Code 1: `CW[31:24]` is not an opcode. -/
  | illegalOpcode
  /-- Code 2: `CW[23:8]` or a must-be-zero bit of `MOD` is not zero. -/
  | reservedBits
  /-- Code 3: the number of operand words, or the presence or length of `DATA`, is wrong. -/
  | badPacket
  /-- Code 4: `MOD[3:0]` of CONSTRUCT or ADOPT is not 0, 1, 2, 4 or 8. -/
  | illegalFpw
  /-- Code 5: the buffer asked for does not fit the physical memory. -/
  | tooLarge
  /-- Code 6: an ADOPT region shorter than its fingerprint, or a blob longer than 65535 bytes. -/
  | badLength
  deriving DecidableEq, Repr

/-- The operand words of one quantized field to pack: value, min, max (30_encoding.md R82, formats
P1 to P4). -/
structure QArg where
  /-- The value to quantize. -/
  value : Op
  /-- The lower end of the range. -/
  min : Op
  /-- The upper end of the range. -/
  max : Op
  deriving DecidableEq, Repr

/-- The operand words of one quantized field to unpack: min, max (30_encoding.md R82, formats U1
to U4). -/
structure QRange where
  /-- The lower end of the range. -/
  min : Op
  /-- The upper end of the range. -/
  max : Op
  deriving DecidableEq, Repr

/-- The 69 commands (30_encoding.md R86). -/
inductive Instr where
  /-- CONSTRUCT: `fpwi = MOD[3:0]`, `op0 = OP[0]` the declared capacity (R110). -/
  | construct (fpwi : BitVec 4) (op0 : Op)
  /-- ADOPT: `fpwi = MOD[3:0]`, `cf = MOD[4]`, `sh = MOD[5]`, `op0 = OP[0]` the byte count, `data = DATA` (R111). -/
  | adopt (fpwi : BitVec 4) (cf sh : Bool) (op0 : Op) (data : List Byte)
  /-- SEEK_START (R112). -/
  | seekStart
  /-- SEEK_TO: `op0 = OP[0]` (R113). -/
  | seekTo (op0 : Op)
  /-- ADVANCE: `op0 = OP[0]` (R114). -/
  | advance (op0 : Op)
  /-- REVERSE: `op0 = OP[0]` (R115). -/
  | reverse (op0 : Op)
  /-- RDCSR: `csr = MOD[1:0]` (R116). -/
  | rdcsr (csr : BitVec 2)
  /-- DUMP (R117). -/
  | dump
  /-- FP_GEN (R132). -/
  | fpGen
  /-- FP_GET (R133). -/
  | fpGet
  /-- FP_CHK (R134). -/
  | fpChk
  /-- PK_U8: `op0 = OP[0]` (R141). -/
  | pkU8 (op0 : Op)
  /-- PK_U16: `op0 = OP[0]` (R142). -/
  | pkU16 (op0 : Op)
  /-- PK_U32: `op0 = OP[0]` (R143). -/
  | pkU32 (op0 : Op)
  /-- PK_U64: `op0 = OP[0]` (R144). -/
  | pkU64 (op0 : Op)
  /-- PK_I8: `op0 = OP[0]` (R145). -/
  | pkI8 (op0 : Op)
  /-- PK_I16: `op0 = OP[0]` (R146). -/
  | pkI16 (op0 : Op)
  /-- PK_I32: `op0 = OP[0]` (R147). -/
  | pkI32 (op0 : Op)
  /-- PK_I64: `op0 = OP[0]` (R148). -/
  | pkI64 (op0 : Op)
  /-- PK_F32: `op0 = OP[0]` (R149). -/
  | pkF32 (op0 : Op)
  /-- PK_F64: `op0 = OP[0]` (R150). -/
  | pkF64 (op0 : Op)
  /-- PK_BLOB: `op0 = OP[0]` the byte count, `data = DATA` (R151). -/
  | pkBlob (op0 : Op) (data : List Byte)
  /-- UP_U8 (R153). -/
  | upU8
  /-- UP_U16 (R154). -/
  | upU16
  /-- UP_U32 (R155). -/
  | upU32
  /-- UP_U64 (R156). -/
  | upU64
  /-- UP_I8 (R157). -/
  | upI8
  /-- UP_I16 (R158). -/
  | upI16
  /-- UP_I32 (R159). -/
  | upI32
  /-- UP_I64 (R160). -/
  | upI64
  /-- UP_F32 (R161). -/
  | upF32
  /-- UP_F64 (R162). -/
  | upF64
  /-- UP_BLOB (R163). -/
  | upBlob
  /-- QPK8.S: value, min, max (R180). -/
  | qpk8S (a : QArg)
  /-- QPK16.S: value, min, max (R181). -/
  | qpk16S (a : QArg)
  /-- QPK24.S: value, min, max (R182). -/
  | qpk24S (a : QArg)
  /-- QPK32.S: value, min, max (R183). -/
  | qpk32S (a : QArg)
  /-- QUP8.S: min, max (R184). -/
  | qup8S (a : QRange)
  /-- QUP16.S: min, max (R185). -/
  | qup16S (a : QRange)
  /-- QUP24.S: min, max (R186). -/
  | qup24S (a : QRange)
  /-- QUP32.S: min, max (R187). -/
  | qup32S (a : QRange)
  /-- QPK8.D: value, min, max (R188). -/
  | qpk8D (a : QArg)
  /-- QPK16.D: value, min, max (R189). -/
  | qpk16D (a : QArg)
  /-- QPK24.D: value, min, max (R190). -/
  | qpk24D (a : QArg)
  /-- QPK32.D: value, min, max (R191). -/
  | qpk32D (a : QArg)
  /-- QPK40.D: value, min, max (R192). -/
  | qpk40D (a : QArg)
  /-- QPK48.D: value, min, max (R193). -/
  | qpk48D (a : QArg)
  /-- QPK56.D: value, min, max (R194). -/
  | qpk56D (a : QArg)
  /-- QUP8.D: min, max (R195). -/
  | qup8D (a : QRange)
  /-- QUP16.D: min, max (R196). -/
  | qup16D (a : QRange)
  /-- QUP24.D: min, max (R197). -/
  | qup24D (a : QRange)
  /-- QUP32.D: min, max (R198). -/
  | qup32D (a : QRange)
  /-- QUP40.D: min, max (R199). -/
  | qup40D (a : QRange)
  /-- QUP48.D: min, max (R200). -/
  | qup48D (a : QRange)
  /-- QUP56.D: min, max (R201). -/
  | qup56D (a : QRange)
  /-- BPK71 (R214). -/
  | bpk71 (a b : QArg)
  /-- BPK62 (R215). -/
  | bpk62 (a b : QArg)
  /-- BPK44 (R216). -/
  | bpk44 (a b : QArg)
  /-- BPK655 (R217). -/
  | bpk655 (a b c : QArg)
  /-- BPK111110 (R218). -/
  | bpk111110 (a b c : QArg)
  /-- BPK10X4 (R219). -/
  | bpk10X4 (a b c d : QArg)
  /-- BPK1111108 (R220). -/
  | bpk1111108 (a b c d : QArg)
  /-- BUP71 (R221). -/
  | bup71 (a b : QRange)
  /-- BUP62 (R222). -/
  | bup62 (a b : QRange)
  /-- BUP44 (R223). -/
  | bup44 (a b : QRange)
  /-- BUP655 (R224). -/
  | bup655 (a b c : QRange)
  /-- BUP111110 (R225). -/
  | bup111110 (a b c : QRange)
  /-- BUP10X4 (R226). -/
  | bup10X4 (a b c d : QRange)
  /-- BUP1111108 (R227). -/
  | bup1111108 (a b c d : QRange)
  deriving DecidableEq, Repr

end Sys2Proof
end

