-- ==== Sys2Proof/Machine/State.lean ====
section
/-! DEFINITION. The state of the block as plain data, the reasons a step can stop, and the state after
reset (10_state.md). -/

namespace Sys2Proof.Machine

/-- The buffer memory `MEM` (10_state.md R24) as (address, byte) cells in one canonical form: addresses
strictly rising, no cell equal to what an unlisted address reads as (Machine/Memory.lean). -/
abbrev Memory := List Host.Cell

/-- A response packet, the triple `(RH, RES, RDATA)` of 30_encoding.md R80, R85. -/
structure Response where
  /-- `RH`, the response header. -/
  rh : BitVec 32
  /-- `RES`, the result words. -/
  res : List Op
  /-- `RDATA`, the result bytes. -/
  rdata : List Byte
  deriving DecidableEq, Repr

/-- The state: the spec's own three registers, buffer memory and `pc` (10_state.md R20, R21, R24, R26),
and the model's fields for the host's packets, the block's answers and the draws (log 1, 3, 4). -/
structure State where
  /-- `CURSOR`, the read/write offset (10_state.md R21). Any 32-bit value is legal (R23). -/
  cursor : BitVec 32
  /-- `LEN`, the number of payload bytes (10_state.md R21). -/
  len : BitVec 32
  /-- `FPW`, the fingerprint width in bytes (10_state.md R21). -/
  fpw : BitVec 4
  /-- `MEM` (10_state.md R24). -/
  mem : Memory
  /-- `pc`, the index of the next command in the host's list (10_state.md R26). -/
  pc : Nat
  /-- The host's command list (30_encoding.md R80, 10_state.md R26; log 1). -/
  commands : List Packet
  /-- The response packets sent, oldest first (30_encoding.md R80; log 3). -/
  responses : List Response
  /-- How many draws have been taken (00_scope.md R17; log 4). -/
  draws : Nat
  deriving DecidableEq, Repr

/-- Why the machine can stop with a fault. The spec gives the block no trap (60_exceptions.md R260). -/
inductive Fault where
  /-- Raised by the two memory operations `memRead` and `memWrite` for an access that reaches an
  address at or above `MEM_BYTES`, which does not exist (10_state.md R24). It needs `LEN + FPW >
  MEM_BYTES`, against R21, so no run reaches it. Safe: the model stops where the spec is silent
  (log 10). -/
  | outsideMem
  deriving DecidableEq, Repr

/-- Why a packet or a command has no meaning. -/
inductive Refusal where
  /-- The model has no meaning for this instruction yet; raised by an arm of `exec` only. Safe: no
  arm of this model answers it. -/
  | notModelled (mnemonic : String)
  /-- The block refuses the packet with this cause (60_exceptions.md R265): raised by the decoder
  (causes 1 to 3) and by the operand checks of CONSTRUCT, ADOPT and PK_BLOB (causes 3 to 6). Nothing
  changes and the run ends (R266). Safe: it is the spec's own outcome (log 11). -/
  | packet (cause : Cause)
  deriving DecidableEq, Repr

/-- The state after reset (10_state.md R29, 70_reset_and_hazards.md R280): the three registers and `pc`
are 0. `mem` lists nothing (log 6); the host has sent nothing, nothing has been answered and no draw
taken (log 1, 3, 4). -/
def State.reset : State :=
  { cursor := 0, len := 0, fpw := 0, mem := [], pc := 0, commands := [], responses := [], draws := 0 }

end Sys2Proof.Machine
end

