-- ==== Sys2Proof/Machine/Memory.lean ====
section
/-! DEFINITION. The buffer memory's own operations: reading and writing bytes over the canonical cell list
(10_state.md R24, 00_scope.md R12). -/

namespace Sys2Proof.Machine

/-- What an address without a cell reads as: 00 (DESIGN CHOICE, log 6). CONSTRUCT fills with 00
(40_buffer_cursor.md R110); a byte that neither CONSTRUCT nor ADOPT has written is not reachable
(10_state.md R29). -/
def Memory.unlisted : Byte := 0

/-- The byte at an address. -/
def Memory.read : Memory → Nat → Byte
  | [], _ => Memory.unlisted
  | (k, b) :: rest, a => if k = a then b else Memory.read rest a

/-- The cell list of one byte at one address: nothing if the address reads so unlisted. -/
def Memory.cell (a : Nat) (b : Byte) : Memory := if b = Memory.unlisted then [] else [(a, b)]

/-- Store one byte, keeping the canonical form. -/
def Memory.write : Memory → Nat → Byte → Memory
  | [], a, b => Memory.cell a b
  | (k, c) :: rest, a, b =>
    if a < k then Memory.cell a b ++ (k, c) :: rest
    else if a = k then Memory.cell a b ++ rest
    else (k, c) :: Memory.write rest a b

/-- `MemRead(a, n)`: the `n` bytes from address `a` on (00_scope.md R12). -/
def Memory.readBytes (m : Memory) : Nat → Nat → List Byte
  | _, 0 => []
  | a, n + 1 => m.read a :: m.readBytes (a + 1) n

/-- `MemWrite(a, n, bs)`: the list `bs` at the bytes from address `a` on (00_scope.md R12). -/
def Memory.writeBytes (m : Memory) : Nat → List Byte → Memory
  | _, [] => m
  | a, b :: bs => (m.write a b).writeBytes (a + 1) bs

/-- 00 into the `n` bytes from address 0 on (40_buffer_cursor.md R110), leaving those above. -/
def Memory.clear (m : Memory) (n : Nat) : Memory := m.filter fun c => decide (n ≤ c.1)

/-- The addresses of the cells strictly rise, starting at `a` or above. -/
def Memory.risingFrom : Nat → Memory → Bool
  | _, [] => true
  | a, (k, _) :: rest => decide (a ≤ k) && Memory.risingFrom (k + 1) rest

/-- The canonical form: rising addresses, and no cell that an unlisted address would read as. -/
def Memory.wf (m : Memory) : Bool :=
  Memory.risingFrom 0 m && m.all fun c => c.2 != Memory.unlisted

end Sys2Proof.Machine
end

