-- ==== Sys2Proof/Machine/Ops.lean ====
section
/-! DEFINITION. The operations every command is made of: the state's updates, the bounds predicate, memory
access, completion and refusal, the draws, and the pack and unpack templates (20_memory.md R56 to
R58). -/

namespace Sys2Proof.Machine

/-- What a command answers. -/
abbrev Result := Host.Outcome State Fault Refusal

/-! ### Responses (30_encoding.md R85) -/

/-- The response of a completed command with these result words: `respond(w0, w1, ...)`
(00_scope.md R14). -/
def Response.words (ws : List Op) : Response := { rh := 0, res := ws, rdata := [] }

/-- The empty response, `respond()` (00_scope.md R14). -/
def Response.done : Response := Response.words []

/-- A byte-payload response, `respond_bytes(bs)`: `RES[0]` is the byte count (00_scope.md R14,
30_encoding.md R84). -/
def Response.bytes (bs : List Byte) : Response :=
  { rh := 0, res := [BitVec.ofNat 64 bs.length], rdata := bs }

/-- A response that is one result word. -/
def Response.word (w : Op) : Response := Response.words [w]

/-! ### Updates of the state -/

/-- Complete a command: send its response and add 1 to `pc` (10_state.md R26, 00_scope.md R13). -/
def State.answer (r : Response) (s : State) : State :=
  { s with pc := s.pc + 1, responses := s.responses ++ [r] }

/-- `CURSOR <- c`. -/
def State.moveTo (c : BitVec 32) (s : State) : State := { s with cursor := c }

/-- Replace the contents of `MEM`. -/
def State.store (m : Memory) (s : State) : State := { s with mem := m }

/-- Set how many draws have been taken. -/
def State.drawn (k : Nat) (s : State) : State := { s with draws := k }

/-- `LEN <- len ; FPW <- fpw`, the buffer's bytes, and `CURSOR <- fpw`: what CONSTRUCT and ADOPT write
(40_buffer_cursor.md R110, R111). -/
def State.rebuild (len : BitVec 32) (fpw : BitVec 4) (m : Memory) (s : State) : State :=
  { s with len := len, fpw := fpw, mem := m, cursor := fpw.setWidth 32 }

/-! ### Outcomes -/

/-- Complete with a response and change nothing else. -/
def State.complete (r : Response) (s : State) : Result := .next (s.answer r)

/-- `raise Refused(cause)`: nothing changes and the run ends (00_scope.md R15, 60_exceptions.md R266;
log 11). This is the one exception primitive of the block. -/
def refuse (c : Cause) : Result := .refused (.packet c)

/-- Go on with what a memory operation gave; a missing address is the fault `outsideMem`. -/
def orFault {α : Type} (r : Option α) (k : α → Result) : Result :=
  match r with
  | none => .fault .outsideMem
  | some x => k x

/-! ### The buffer -/

/-- `BACKING = LEN + FPW` (10_state.md R22), over the unbounded integers (00_scope.md R11). -/
def State.backing (s : State) : Nat := s.len.toNat + s.fpw.toNat

/-- `Fits(n)`: `FPW <= CURSOR and CURSOR + n <= BACKING`, over the unbounded integers
(20_memory.md R56). -/
def State.fits (n : Nat) (s : State) : Bool :=
  decide (s.fpw.toNat ≤ s.cursor.toNat) && decide (s.cursor.toNat + n ≤ s.backing)

/-- `MemRead(a, n)` (00_scope.md R12); nothing for an access beyond `MEM_BYTES` (log 10). -/
def State.memRead (a n : Nat) (s : State) : Option (List Byte) :=
  if a + n ≤ Config.memBytes then some (s.mem.readBytes a n) else none

/-- The memory after `MemWrite(a, n, bs)` (00_scope.md R12); nothing for an access beyond `MEM_BYTES`
(log 10). -/
def State.memWrite (a : Nat) (bs : List Byte) (s : State) : Option Memory :=
  if a + bs.length ≤ Config.memBytes then some (s.mem.writeBytes a bs) else none

/-! ### Draws (00_scope.md R17; log 4) -/

/-- The `k`-th draw as a number of `n` bits, `draw_N()`. -/
def drawCode (n k : Nat) : Nat := (Config.draw k).toNat % 2 ^ n

/-- The draws from the `k`-th on as `n` bytes, `draw_8()` each. -/
def drawBytes (k : Nat) : Nat → List Byte
  | 0 => []
  | n + 1 => (Config.draw k).setWidth 8 :: drawBytes (k + 1) n

/-! ### The two access templates -/

/-- The pack template of 20_memory.md R57 for `n` bytes that may take draws: `bytes k` are the bytes
and the new draw count, given the count `k` so far. The bounds check comes first; when it fails
nothing is computed and no draw is taken (60_exceptions.md R267). -/
def State.packWith (n : Nat) (bytes : Nat → List Byte × Nat) (s : State) : Result :=
  if s.fits n then
    let out := bytes s.draws
    orFault (s.memWrite s.cursor.toNat out.1) fun m =>
      .next ((((s.store m).drawn out.2).moveTo (s.cursor + BitVec.ofNat 32 n)).answer .done)
  else s.complete .done

/-- The pack template for a byte list that takes no draw (20_memory.md R57). -/
def State.pack (bs : List Byte) (s : State) : Result := s.packWith bs.length fun k => (bs, k)

/-- The unpack template of 20_memory.md R58 for `n` bytes: `dec bs k` are the result words and the new
draw count, `zero` the result words of an under-read, which leaves `CURSOR` alone. -/
def State.unpackWith (n : Nat) (dec : List Byte → Nat → List Op × Nat) (zero : List Op)
    (s : State) : Result :=
  if s.fits n then
    orFault (s.memRead s.cursor.toNat n) fun bs =>
      let out := dec bs s.draws
      .next (((s.drawn out.2).moveTo (s.cursor + BitVec.ofNat 32 n)).answer (.words out.1))
  else s.complete (.words zero)

/-- The unpack template for one result word that takes no draw, zero value 0 (20_memory.md R58). -/
def State.unpack (n : Nat) (dec : List Byte → Op) (s : State) : Result :=
  s.unpackWith n (fun bs k => ([dec bs], k)) [0]

end Sys2Proof.Machine
end

