-- ==== Sys2Proof/Machine/Float.lean ====
section
/-! DEFINITION. The reference floating-point primitives of `QNUM` (00_scope.md R16, decision D16; the record
itself is in Machine/Qnum.lean): IEEE 754 binary32 and binary64, each operation computed exactly and rounded once, to nearest, ties to even. What IEEE 754
itself says is 93_implementation_defined.md G2 and G5 (log 9). -/

namespace Sys2Proof.Machine

/-- The two formats: `S` is binary32, `D` is binary64 (00_scope.md R16). -/
inductive Fmt where
  | S | D
  deriving DecidableEq, Repr

/-- The significand's width in bits: 24 or 53 (93_implementation_defined.md G2). -/
def Fmt.prec : Fmt → Nat
  | .S => 24
  | .D => 53

/-- The exponent field's width in bits (93_implementation_defined.md G5). -/
def Fmt.expBits : Fmt → Nat
  | .S => 8
  | .D => 11

/-- The pattern's width in bits (00_scope.md R16). -/
def Fmt.width : Fmt → Nat
  | .S => 32
  | .D => 64

/-- The exponent of the last significand place of the smallest numbers: -149 or -1074. -/
def Fmt.eMin : Fmt → Int
  | .S => -149
  | .D => -1074

/-- The exponent of the last significand place of the largest numbers: 104 or 971. -/
def Fmt.eMax : Fmt → Int
  | .S => 104
  | .D => 971

/-- A floating-point value, the same type for both formats. `fin neg m e` is `m * 2^e`, negated when
`neg`; a zero keeps its sign. NaN is one value: which pattern a NaN result has is not stated
(log 5). -/
inductive Fl where
  | nan
  | inf (neg : Bool)
  | fin (neg : Bool) (m : Nat) (e : Int)
  deriving DecidableEq, Repr

/-- The floor of the base-2 logarithm of `num / den`, for positive `num` and `den`. -/
def ratLog2 (num den : Nat) : Int :=
  let k : Int := (Nat.log2 num : Int) - (Nat.log2 den : Int)
  if den * 2 ^ k.toNat ≤ num * 2 ^ (-k).toNat then k else k - 1

/-- `num / den` rounded to the nearest integer, ties to even, for positive `den`. -/
def rne (num den : Nat) : Nat :=
  let q := num / den
  let r := num % den
  if den < 2 * r || (2 * r == den && q % 2 == 1) then q + 1 else q

/-- The rational number `num / den` (with `den` positive), negated when `neg`, rounded once to `fmt`:
to nearest, ties to even, infinity on overflow, a zero with the sign kept when it rounds to zero
(00_scope.md R16). -/
def Fl.round (fmt : Fmt) (neg : Bool) (num den : Nat) : Fl :=
  if num = 0 then .fin neg 0 fmt.eMin
  else
    let e := max (ratLog2 num den - (fmt.prec - 1)) fmt.eMin
    let m := rne (num * 2 ^ (-e).toNat) (den * 2 ^ e.toNat)
    let carry := m == 2 ^ fmt.prec
    let m' := if carry then 2 ^ (fmt.prec - 1) else m
    let e' := if carry then e + 1 else e
    if fmt.eMax < e' then .inf neg else .fin neg m' e'

/-- `m * 2^e` rounded once to `fmt`. -/
def Fl.roundDyadic (fmt : Fmt) (neg : Bool) (m : Nat) (e : Int) : Fl :=
  Fl.round fmt neg (m * 2 ^ e.toNat) (2 ^ (-e).toNat)

/-- `val_fmt(b)`, the value of the pattern in the low bits of a word (00_scope.md R16,
30_encoding.md R83). -/
def Fl.ofBits (fmt : Fmt) (b : Op) : Fl :=
  let fracBits := fmt.prec - 1
  let frac := b.toNat % 2 ^ fracBits
  let ex := b.toNat / 2 ^ fracBits % 2 ^ fmt.expBits
  let neg := b.getLsbD (fmt.width - 1)
  if ex = 2 ^ fmt.expBits - 1 then (if frac = 0 then .inf neg else .nan)
  else if ex = 0 then .fin neg frac fmt.eMin
  else .fin neg (2 ^ fracBits + frac) (fmt.eMin + ex - 1)

/-- The pattern with this sign, exponent field and fraction field, in the low bits of a word. -/
def fieldsToBits (fmt : Fmt) (neg : Bool) (ex frac : Nat) : Op :=
  BitVec.ofNat 64 (neg.toNat * 2 ^ (fmt.width - 1) + ex * 2 ^ (fmt.prec - 1) + frac)

/-- A NaN pattern made from free bits: any sign and any non-zero fraction (log 5). -/
def nanBits (fmt : Fmt) (free : BitVec 64) : Op :=
  let frac := free.toNat % 2 ^ (fmt.prec - 1)
  fieldsToBits fmt (free.getLsbD 63) (2 ^ fmt.expBits - 1) (if frac = 0 then 1 else frac)

/-- `bits_fmt(v)` of a value of the format, zero-extended to a result word (00_scope.md R16,
30_encoding.md R85); `free` are the free bits of a NaN's pattern. -/
def Fl.toBits (fmt : Fmt) (free : BitVec 64) : Fl → Op
  | .nan => nanBits fmt free
  | .inf neg => fieldsToBits fmt neg (2 ^ fmt.expBits - 1) 0
  | .fin neg m e =>
    if m < 2 ^ (fmt.prec - 1) then fieldsToBits fmt neg 0 m
    else fieldsToBits fmt neg (e - fmt.eMin + 1).toNat (m - 2 ^ (fmt.prec - 1))

/-- The integer `(-1)^neg * m * 2^(e - base)`, for `base ≤ e`. -/
def scaled (neg : Bool) (m : Nat) (e base : Int) : Int :=
  let n : Int := (m * 2 ^ (e - base).toNat : Nat)
  if neg then -n else n

/-- `hi > lo`, false when either is NaN; the two zeros are equal (43_quantization.md R174). -/
def Fl.gt : Fl → Fl → Bool
  | .nan, _ => false
  | _, .nan => false
  | .inf true, _ => false
  | .inf false, .inf false => false
  | .inf false, _ => true
  | .fin _ _ _, .inf neg => neg
  | .fin n1 m1 e1, .fin n2 m2 e2 =>
    decide (scaled n2 m2 e2 (min e1 e2) < scaled n1 m1 e1 (min e1 e2))

/-- The value with its sign reversed. -/
def Fl.neg : Fl → Fl
  | .nan => .nan
  | .inf n => .inf (!n)
  | .fin n m e => .fin (!n) m e

/-- `fadd_fmt(a, b)` (00_scope.md R16). An exact zero sum is `+0.0` unless both operands are
negative zeros. -/
def fadd (fmt : Fmt) : Fl → Fl → Fl
  | .nan, _ => .nan
  | _, .nan => .nan
  | .inf n1, .inf n2 => if n1 = n2 then .inf n1 else .nan
  | .inf n1, .fin _ _ _ => .inf n1
  | .fin _ _ _, .inf n2 => .inf n2
  | .fin n1 m1 e1, .fin n2 m2 e2 =>
    let e := min e1 e2
    let i := scaled n1 m1 e1 e + scaled n2 m2 e2 e
    if i = 0 then .fin (n1 && n2) 0 fmt.eMin
    else Fl.roundDyadic fmt (decide (i < 0)) i.natAbs e

/-- `fsub_fmt(a, b)` (00_scope.md R16). -/
def fsub (fmt : Fmt) (a b : Fl) : Fl := fadd fmt a b.neg

/-- `fmul_fmt(a, b)` (00_scope.md R16). Zero times infinity is NaN. -/
def fmul (fmt : Fmt) : Fl → Fl → Fl
  | .nan, _ => .nan
  | _, .nan => .nan
  | .inf n1, .inf n2 => .inf (n1 ^^ n2)
  | .inf n1, .fin n2 m2 _ => if m2 = 0 then .nan else .inf (n1 ^^ n2)
  | .fin n1 m1 _, .inf n2 => if m1 = 0 then .nan else .inf (n1 ^^ n2)
  | .fin n1 m1 e1, .fin n2 m2 e2 => Fl.roundDyadic fmt (n1 ^^ n2) (m1 * m2) (e1 + e2)

/-- `fdiv_fmt(a, b)` (00_scope.md R16). A finite non-zero value over zero is the infinity with the
exclusive-or of the signs; 0/0 and infinity over infinity are NaN. -/
def fdiv (fmt : Fmt) : Fl → Fl → Fl
  | .nan, _ => .nan
  | _, .nan => .nan
  | .inf _, .inf _ => .nan
  | .inf n1, .fin n2 _ _ => .inf (n1 ^^ n2)
  | .fin n1 _ _, .inf n2 => .fin (n1 ^^ n2) 0 fmt.eMin
  | .fin n1 m1 e1, .fin n2 m2 e2 =>
    if m2 = 0 then (if m1 = 0 then .nan else .inf (n1 ^^ n2))
    else Fl.round fmt (n1 ^^ n2) (m1 * 2 ^ (e1 - e2).toNat) (m2 * 2 ^ (e2 - e1).toNat)

/-- The largest `r` built from `acc` and the `k` bits below it with `r * r ≤ n`. -/
def isqrtBits (n : Nat) : Nat → Nat → Nat
  | 0, acc => acc
  | k + 1, acc =>
    isqrtBits n k (if (acc + 2 ^ k) * (acc + 2 ^ k) ≤ n then acc + 2 ^ k else acc)

/-- The integer square root, rounded down. -/
def isqrt (n : Nat) : Nat := isqrtBits n (Nat.log2 n / 2 + 1) 0

/-- `fsqrt_fmt(a)`, correctly rounded (00_scope.md R16). The root of a non-zero finite value is found
as an integer root with more than `prec` bits and a sticky bit for what it leaves. -/
def fsqrt (fmt : Fmt) : Fl → Fl
  | .nan => .nan
  | .inf neg => if neg then .nan else .inf false
  | .fin neg m e =>
    if m = 0 then .fin neg 0 fmt.eMin
    else if neg then .nan
    else
      let odd := (e % 2).toNat
      let n := m * 2 ^ (odd + 2 * (fmt.prec + 2))
      let r := isqrt n
      let sticky := if r * r = n then 0 else 1
      Fl.roundDyadic fmt false (2 * r + sticky) ((e - odd) / 2 - (fmt.prec + 2) - 1)

/-- `cvt_fmt(i)` of a non-negative integer (00_scope.md R16). -/
def cvt (fmt : Fmt) (i : Nat) : Fl := Fl.round fmt false i 1

/-- `const_fmt(r)` of the non-negative real number `r = num / den` (00_scope.md R16). -/
def constant (fmt : Fmt) (num den : Nat) : Fl := Fl.round fmt false num den

/-- `trunc(s)`, the integer part of a finite value, rounding toward zero; nothing for a NaN or an
infinity (00_scope.md R16). -/
def Fl.trunc : Fl → Option Int
  | .nan => none
  | .inf _ => none
  | .fin neg m e =>
    let n : Int := (m * 2 ^ e.toNat / 2 ^ (-e).toNat : Nat)
    some (if neg then -n else n)

end Sys2Proof.Machine
end

