-- ==== Sys2Proof/Machine/Qnum.lean ====
section
/-! DEFINITION. The parameter `QNUM` (00_scope.md R9, R16): the record of the floating-point primitives, its
reference value, and the two functions of the quantization codec over any such record
(43_quantization.md R173 to R175). -/

namespace Sys2Proof.Machine

/-- `QNUM`, the record of the floating-point primitives the quantization uses (00_scope.md R9, R16). The
values are those of IEEE 754, whose formats the source names; what is done with them is the record's. -/
structure QNum where
  /-- `fadd_fmt(a, b)`. -/
  fadd : Fmt → Fl → Fl → Fl
  /-- `fsub_fmt(a, b)`. -/
  fsub : Fmt → Fl → Fl → Fl
  /-- `fmul_fmt(a, b)`. -/
  fmul : Fmt → Fl → Fl → Fl
  /-- `fdiv_fmt(a, b)`. -/
  fdiv : Fmt → Fl → Fl → Fl
  /-- `fsqrt_fmt(a)`. -/
  fsqrt : Fmt → Fl → Fl
  /-- `cvt_fmt(i)`, of a non-negative integer. -/
  cvt : Fmt → Nat → Fl
  /-- `const_fmt(r)`, of the non-negative real number `r = num / den`, given as `num` and `den`. -/
  const : Fmt → Nat → Nat → Fl
  /-- `trunc(s)`; nothing where `s` is NaN or infinite. -/
  trunc : Fl → Option Int
  /-- `bits_fmt(v)`; the 64 free bits settle the pattern of a NaN (log 5). -/
  bits : Fmt → BitVec 64 → Fl → Op
  /-- `val_fmt(b)`, of the low bits of a word. -/
  val : Fmt → Op → Fl

/-- The reference value of `QNUM`: IEEE 754 in the operand's format, one rounding per operation, to
nearest, ties to even (00_scope.md R9, R16, decision D16; log 9). -/
def QNum.ieee : QNum where
  fadd := Sys2Proof.Machine.fadd
  fsub := Sys2Proof.Machine.fsub
  fmul := Sys2Proof.Machine.fmul
  fdiv := Sys2Proof.Machine.fdiv
  fsqrt := Sys2Proof.Machine.fsqrt
  cvt := Sys2Proof.Machine.cvt
  const := constant
  trunc := Fl.trunc
  bits := Fl.toBits
  val := Fl.ofBits

end Sys2Proof.Machine

/-- The `QNUM` this machine is configured with: the reference value, as decision D16 says. Every shared
operation takes the record as an argument, and `Sys2Proof.Machine.execWith` is the machine with any other
(00_scope.md R9, 10_state.md R27; log 9). -/
def Sys2Proof.Config.qnum : Sys2Proof.Machine.QNum := Sys2Proof.Machine.QNum.ieee

namespace Sys2Proof.Machine

/-- `K(fmt, N) = const_fmt(2^N - 1)`, the scale constant (43_quantization.md R173). -/
def QNum.scaleK (Q : QNum) (fmt : Fmt) (n : Nat) : Fl := Q.const fmt (2 ^ n - 1) 1

/-- `QENC(fmt, N, v, lo, hi)`, the N-bit code of a value; `none` where R174 returns `draw_N()`: an
invalid range, or a NaN or infinite scaled value (43_quantization.md R174). -/
def QNum.qenc (Q : QNum) (fmt : Fmt) (n : Nat) (v lo hi : Fl) : Option Nat :=
  if hi.gt lo then
    let d := Q.fsub fmt v lo
    let r := Q.fsub fmt hi lo
    let t := Q.fdiv fmt d r
    let s := Q.fmul fmt t (Q.scaleK fmt n)
    (Q.trunc s).map fun z => (z % 2 ^ n).toNat
  else none

/-- `QDEC(fmt, N, q, lo, hi)`, the value of a code; `none` where R175 returns `draw_fmt()`
(43_quantization.md R175). -/
def QNum.qdec (Q : QNum) (fmt : Fmt) (n q : Nat) (lo hi : Fl) : Option Fl :=
  if hi.gt lo then
    let c := Q.cvt fmt q
    let t := Q.fdiv fmt c (Q.scaleK fmt n)
    let r := Q.fsub fmt hi lo
    let m := Q.fmul fmt t r
    some (Q.fadd fmt m lo)
  else none

end Sys2Proof.Machine
end

