-- ==== Sys2Proof/Machine/Operands.lean ====
section
/-! DEFINITION. How a command reads its operand words and forms its result words (30_encoding.md R83, R85), and
how a quantized field's code or answer is settled when the rules leave it free (00_scope.md R17). -/

namespace Sys2Proof.Machine

/-! ### Integers -/

/-- The low `n` bytes of an operand word as an unsigned number, `OP[8n-1:0]`; the bits above are
ignored (30_encoding.md R83). -/
def lowBytes (n : Nat) (w : Op) : Nat := w.toNat % 256 ^ n

/-- `zext_64(FromBE(bs))`, the result word of an unsigned integer or a float pattern
(30_encoding.md R85). -/
def zextBE (bs : List Byte) : Op := BitVec.ofNat 64 (fromBE bs)

/-- `sext_64(FromBE(bs))`, the result word of a signed integer of `n` bytes (30_encoding.md R85,
42_primitive.md R157 to R160). -/
def sextBE (n : Nat) (bs : List Byte) : Op := (BitVec.ofNat (8 * n) (fromBE bs)).signExtend 64

/-! ### Registers -/

/-- What RDCSR answers for a register number: `CURSOR`, `LEN`, `FPW` or `LEN + FPW`, zero-extended
(10_state.md R21, 40_buffer_cursor.md R116). -/
def State.csr (r : BitVec 2) (s : State) : Op :=
  if r = 0 then s.cursor.setWidth 64
  else if r = 1 then s.len.setWidth 64
  else if r = 2 then s.fpw.setWidth 64
  else BitVec.ofNat 64 s.backing

/-! ### Quantized fields -/

/-- The code of a field to pack in the arithmetic `Q`, as its operand words say; `none` where it is a
draw (43_quantization.md R174). -/
def QNum.codeOf (Q : QNum) (fmt : Fmt) (n : Nat) (a : QArg) : Option Nat :=
  Q.qenc fmt n (Q.val fmt a.value) (Q.val fmt a.min) (Q.val fmt a.max)

/-- The value of a field's code in the arithmetic `Q`, as its operand words say; `none` where it is a
draw (43_quantization.md R175). -/
def QNum.valueOf (Q : QNum) (fmt : Fmt) (n q : Nat) (r : QRange) : Option Fl :=
  Q.qdec fmt n q (Q.val fmt r.min) (Q.val fmt r.max)

/-- The code of a field in the machine's own arithmetic. -/
abbrev codeOf (fmt : Fmt) (n : Nat) (a : QArg) : Option Nat := Config.qnum.codeOf fmt n a

/-- The value of a field's code in the machine's own arithmetic. -/
abbrev valueOf (fmt : Fmt) (n q : Nat) (r : QRange) : Option Fl := Config.qnum.valueOf fmt n q r

/-- A code of `n` bits: the rules' own, or the next draw; and the draw count after it. -/
def settleCode (n : Nat) (c : Option Nat) (k : Nat) : Nat × Nat :=
  match c with
  | some q => (q, k)
  | none => (drawCode n k, k + 1)

/-- A result word of format `fmt`: the pattern of the rules' own value, or, where the answer is a
draw, the free low bits of the next draw; and the draw count after it. A NaN has no stated pattern:
it takes the next draw for its sign and payload (log 5). -/
def settleValue (Q : QNum) (fmt : Fmt) (v : Option Fl) (k : Nat) : Op × Nat :=
  match v with
  | some .nan => (Q.bits fmt (Config.draw k) .nan, k + 1)
  | some (.inf neg) => (Q.bits fmt 0 (.inf neg), k)
  | some (.fin neg m e) => (Q.bits fmt 0 (.fin neg m e), k)
  | none => (BitVec.ofNat 64 (drawCode fmt.width k), k + 1)

/-- The codes of several fields, settled in layout order (60_exceptions.md R267, step 9). -/
def settleCodes : List (Nat × Option Nat) → Nat → List (Nat × Nat) × Nat
  | [], k => ([], k)
  | (w, c) :: rest, k =>
    let head := settleCode w c k
    let tail := settleCodes rest head.2
    ((w, head.1) :: tail.1, tail.2)

/-- The answers of several fields, settled in layout order (60_exceptions.md R267, step 9). -/
def settleValues (Q : QNum) (fmt : Fmt) : List (Option Fl) → Nat → List Op × Nat
  | [], k => ([], k)
  | v :: rest, k =>
    let head := settleValue Q fmt v k
    let tail := settleValues Q fmt rest head.2
    (head.1 :: tail.1, tail.2)

end Sys2Proof.Machine
end

