-- ==== Sys2Proof/Machine/BitPack.lean ====
section
/-! DEFINITION. The mixed-precision bit-packing engine (44_bitpack.md): two to four binary32 fields quantized to
sub-byte widths and put into one big-endian word. -/

namespace Sys2Proof.Machine

/-- The number of bits of a list of fields (44_bitpack.md R211). -/
def totalWidth {α : Type} : List (Nat × α) → Nat
  | [] => 0
  | (w, _) :: rest => w + totalWidth rest

/-- The shared word of a list of (width, code) fields: each code shifted by the number of bits of the
fields after it, the first field on top, no gaps (44_bitpack.md R211). -/
def assemble : List (Nat × Nat) → Nat
  | [] => 0
  | (_, q) :: rest => (q <<< totalWidth rest) ||| assemble rest

/-- The codes of the fields of a shared word, in layout order (44_bitpack.md R211). -/
def extract {α : Type} (word : Nat) : List (Nat × α) → List (Nat × Nat × α)
  | [] => []
  | (w, x) :: rest => (w, word >>> totalWidth rest % 2 ^ w, x) :: extract word rest

/-- `BPKx`: every field quantized in binary32, the word written big-endian, one bounds check for all
fields (44_bitpack.md R212, R213). -/
def bitPack (Q : QNum) (fields : List (Nat × QArg)) (s : State) : Result :=
  let n := totalWidth fields / 8
  s.packWith n fun k =>
    let qs := settleCodes (fields.map fun f => (f.1, Q.codeOf .S f.1 f.2)) k
    (beBytes n (assemble qs.1), qs.2)

/-- `BUPx`: the fields of the big-endian word at the cursor mapped back, one result word each; `+0.0`
for every field on an under-read (44_bitpack.md R212, R213). -/
def bitUnpack (Q : QNum) (fields : List (Nat × QRange)) (s : State) : Result :=
  s.unpackWith (totalWidth fields / 8)
    (fun bs k =>
      settleValues Q .S
        ((extract (fromBE bs) fields).map fun f => Q.valueOf .S f.1 f.2.1 f.2.2) k)
    (fields.map fun _ => 0)

/-- BPK71 (44_bitpack.md R214): layout 7+1. -/
def execBpk71 (a b : QArg) (s : State) : Result :=
  bitPack Config.qnum [(7, a), (1, b)] s

/-- BPK62 (44_bitpack.md R215): layout 6+2. -/
def execBpk62 (a b : QArg) (s : State) : Result :=
  bitPack Config.qnum [(6, a), (2, b)] s

/-- BPK44 (44_bitpack.md R216): layout 4+4. -/
def execBpk44 (a b : QArg) (s : State) : Result :=
  bitPack Config.qnum [(4, a), (4, b)] s

/-- BPK655 (44_bitpack.md R217): layout 6+5+5. -/
def execBpk655 (a b c : QArg) (s : State) : Result :=
  bitPack Config.qnum [(6, a), (5, b), (5, c)] s

/-- BPK111110 (44_bitpack.md R218): layout 11+11+10. -/
def execBpk111110 (a b c : QArg) (s : State) : Result :=
  bitPack Config.qnum [(11, a), (11, b), (10, c)] s

/-- BPK10X4 (44_bitpack.md R219): layout 10+10+10+10. -/
def execBpk10X4 (a b c d : QArg) (s : State) : Result :=
  bitPack Config.qnum [(10, a), (10, b), (10, c), (10, d)] s

/-- BPK1111108 (44_bitpack.md R220): layout 11+11+10+8. -/
def execBpk1111108 (a b c d : QArg) (s : State) : Result :=
  bitPack Config.qnum [(11, a), (11, b), (10, c), (8, d)] s

/-- BUP71 (44_bitpack.md R221): layout 7+1. -/
def execBup71 (a b : QRange) (s : State) : Result :=
  bitUnpack Config.qnum [(7, a), (1, b)] s

/-- BUP62 (44_bitpack.md R222): layout 6+2. -/
def execBup62 (a b : QRange) (s : State) : Result :=
  bitUnpack Config.qnum [(6, a), (2, b)] s

/-- BUP44 (44_bitpack.md R223): layout 4+4. -/
def execBup44 (a b : QRange) (s : State) : Result :=
  bitUnpack Config.qnum [(4, a), (4, b)] s

/-- BUP655 (44_bitpack.md R224): layout 6+5+5. -/
def execBup655 (a b c : QRange) (s : State) : Result :=
  bitUnpack Config.qnum [(6, a), (5, b), (5, c)] s

/-- BUP111110 (44_bitpack.md R225): layout 11+11+10. -/
def execBup111110 (a b c : QRange) (s : State) : Result :=
  bitUnpack Config.qnum [(11, a), (11, b), (10, c)] s

/-- BUP10X4 (44_bitpack.md R226): layout 10+10+10+10. -/
def execBup10X4 (a b c d : QRange) (s : State) : Result :=
  bitUnpack Config.qnum [(10, a), (10, b), (10, c), (10, d)] s

/-- BUP1111108 (44_bitpack.md R227): layout 11+11+10+8. -/
def execBup1111108 (a b c d : QRange) (s : State) : Result :=
  bitUnpack Config.qnum [(11, a), (11, b), (10, c), (8, d)] s

end Sys2Proof.Machine
end

