-- ==== Sys2Proof/WellFormed.lean ====
section
/-! DEFINITION. Which command terms are well formed: those whose packet the operand checks of
60_exceptions.md R265 (causes 3 to 6) let through. Causes 1 to 3 of a packet's shape are the
decoder's (Decode.lean). Whether a packet is refused depends on the packet and on `MEM_BYTES` alone
(R265). -/

namespace Sys2Proof

/-- The legal fingerprint widths `{0,1,2,4,8}` (00_scope.md R10, 30_encoding.md R87). -/
def fpwLegal (f : BitVec 4) : Bool :=
  f == 0 || f == 1 || f == 2 || f == 4 || f == 8

/-- The longest blob, 65535 bytes (00_scope.md R10, 42_primitive.md R151). -/
def maxBlob : Nat := 65535

/-- The region ADOPT asks for, in bytes: the bytes supplied, plus the fingerprint when a new region is
taken (`CF = 0`, `SH = 0`; 40_buffer_cursor.md R111). -/
def adoptRegion (fpwi : BitVec 4) (cf sh : Bool) (op0 : Op) : Nat :=
  if cf || sh then op0.toNat else op0.toNat + fpwi.toNat

/-- A command is well formed when no operand check refuses it (60_exceptions.md R265, R267). -/
def Instr.wf : Instr → Bool
  | .construct fpwi op0 => fpwLegal fpwi && decide (op0.toNat + fpwi.toNat ≤ Config.memBytes)
  | .adopt fpwi cf sh op0 data =>
    fpwLegal fpwi && decide (data.length = op0.toNat)
      && decide (adoptRegion fpwi cf sh op0 ≤ Config.memBytes)
      && (!(cf || sh) || decide (fpwi.toNat ≤ op0.toNat))
  | .pkBlob op0 data => decide (op0.toNat ≤ maxBlob) && decide (data.length = op0.toNat)
  | _ => true

end Sys2Proof
end

