-- ==== Sys2Proof/Machine/BufferCursor.lean ====
section
/-! DEFINITION. The buffer and cursor commands (40_buffer_cursor.md). -/

namespace Sys2Proof.Machine

/-- CONSTRUCT (40_buffer_cursor.md R110): a zero-filled buffer of the declared capacity and fingerprint
width, the cursor at its first payload byte. -/
def execConstruct (fpwi : BitVec 4) (op0 : Op) (s : State) : Result :=
  if !fpwLegal fpwi then refuse .illegalFpw
  else if Config.memBytes < op0.toNat + fpwi.toNat then refuse .tooLarge
  else
    .next ((s.rebuild (BitVec.ofNat 32 op0.toNat) fpwi
      (s.mem.clear (op0.toNat + fpwi.toNat))).answer .done)

/-- ADOPT (40_buffer_cursor.md R111): a buffer from the bytes supplied. `cf`: they hold the prefix
already. `sh`: they are shifted to make room for it, the last `FPW` bytes are lost and the prefix is
drawn. Neither: a larger region is taken, its prefix zero. -/
def execAdopt (fpwi : BitVec 4) (cf sh : Bool) (op0 : Op) (data : List Byte) (s : State) : Result :=
  let nb := op0.toNat
  let f := fpwi.toNat
  if !fpwLegal fpwi then refuse .illegalFpw
  else if data.length ≠ nb then refuse .badPacket
  else if Config.memBytes < adoptRegion fpwi cf sh op0 then refuse .tooLarge
  else if (cf || sh) && decide (nb < f) then refuse .badLength
  else if cf then
    .next ((s.rebuild (BitVec.ofNat 32 (nb - f)) fpwi (s.mem.writeBytes 0 data)).answer .done)
  else if sh then
    .next (((s.rebuild (BitVec.ofNat 32 (nb - f)) fpwi
      ((s.mem.writeBytes f (data.take (nb - f))).writeBytes 0 (drawBytes s.draws f))).drawn
        (s.draws + f)).answer .done)
  else
    .next ((s.rebuild (BitVec.ofNat 32 nb) fpwi
      ((s.mem.writeBytes 0 (List.replicate f 0)).writeBytes f data)).answer .done)

/-- SEEK_START (40_buffer_cursor.md R112): `CURSOR <- FPW`. -/
def execSeekStart (s : State) : Result :=
  (s.moveTo (s.fpw.setWidth 32)).complete .done

/-- SEEK_TO (40_buffer_cursor.md R113): the signed, payload-relative index clamped to `[0, LEN-1]`
over the integers, the lower bound last. -/
def execSeekTo (op0 : Op) (s : State) : Result :=
  let c : Int := max 0 (min op0.toInt ((s.len.toNat : Int) - 1))
  (s.moveTo (BitVec.ofInt 32 ((s.fpw.toNat : Int) + c))).complete .done

/-- ADVANCE (40_buffer_cursor.md R114): `CURSOR <- (CURSOR + OP[0][31:0]) mod 2^32`, unchecked. -/
def execAdvance (op0 : Op) (s : State) : Result :=
  (s.moveTo (s.cursor + op0.setWidth 32)).complete .done

/-- REVERSE (40_buffer_cursor.md R115): `CURSOR <- (CURSOR - OP[0][31:0]) mod 2^32`, unchecked. -/
def execReverse (op0 : Op) (s : State) : Result :=
  (s.moveTo (s.cursor - op0.setWidth 32)).complete .done

/-- RDCSR (40_buffer_cursor.md R116): read one register. -/
def execRdcsr (csr : BitVec 2) (s : State) : Result :=
  s.complete (.word (s.csr csr))

/-- DUMP (40_buffer_cursor.md R117): the byte image `MEM[0 .. BACKING-1]`. -/
def execDump (s : State) : Result :=
  orFault (s.memRead 0 s.backing) fun bs => s.complete (.bytes bs)

end Sys2Proof.Machine
end

