-- ==== Sys2Proof/Machine/Fingerprint.lean ====
section
/-! DEFINITION. The integrity fingerprint (41_fingerprint.md). -/

namespace Sys2Proof.Machine

/-- `FPV` for a fingerprint width and a payload: the mixing hash truncated to `FPW` bytes by masking
(41_fingerprint.md R131). -/
def fingerprint (f : Nat) (payload : List Byte) : Nat :=
  (Config.fpMix f payload).toNat % 2 ^ (8 * f)

/-- FP_GEN (41_fingerprint.md R132): the fingerprint of the payload into the prefix, big-endian. -/
def execFpGen (s : State) : Result :=
  let f := s.fpw.toNat
  if f = 0 then s.complete .done
  else
    orFault (s.memRead f s.len.toNat) fun payload =>
      orFault (s.memWrite 0 (beBytes f (fingerprint f payload))) fun m =>
        (s.store m).complete .done

/-- FP_GET (41_fingerprint.md R133): the value stored in the prefix, 0 when there is no prefix. -/
def execFpGet (s : State) : Result :=
  let f := s.fpw.toNat
  if f = 0 then s.complete (.word 0)
  else orFault (s.memRead 0 f) fun bs => s.complete (.word (zextBE bs))

/-- FP_CHK (41_fingerprint.md R134): 1 if the stored value is the fingerprint of the payload as it
stands, or if there is no prefix; else 0. -/
def execFpChk (s : State) : Result :=
  let f := s.fpw.toNat
  if f = 0 then s.complete (.word 1)
  else
    orFault (s.memRead 0 f) fun stored =>
      orFault (s.memRead f s.len.toNat) fun payload =>
        s.complete (.word (if fromBE stored = fingerprint f payload then 1 else 0))

/-! ### The stand-in hash, for simulation only (41_fingerprint.md R138) -/

/-- The exclusive-or of the payload's 8-byte big-endian words and its zero-extended remainder;
`fuel` bounds the number of words. -/
def foldWords : Nat → List Byte → BitVec 64
  | 0, _ => 0
  | fuel + 1, p =>
    if p.isEmpty then 0
    else BitVec.ofNat 64 (fromBE (p.take 8)) ^^^ foldWords fuel (p.drop 8)

/-- `FP_MIX_SIM`. It is not the hardware's hash, no command uses it, and no claim about the block
rests on it (41_fingerprint.md R138). -/
def fpMixSim (_f : Nat) (p : List Byte) : BitVec 64 :=
  let h := foldWords (p.length / 8 + 1) p
  let h := h ^^^ (h >>> 32)
  let h := h ^^^ (h >>> 16)
  h ^^^ (h >>> 8)

end Sys2Proof.Machine
end

