-- ==== Sys2Proof/Machine/Primitive.lean ====
section
/-! DEFINITION. The primitive codec (42_primitive.md): big-endian integers, floats by their bit patterns, and
length-prefixed blobs, each an instance of the pack or the unpack template. -/

namespace Sys2Proof.Machine

/-- Pack the low `n` bytes of an operand word, most significant byte first (42_primitive.md R140,
R141 to R150). -/
def packLow (n : Nat) (op0 : Op) (s : State) : Result := s.pack (beBytes n (lowBytes n op0))

/-- Unpack `n` bytes as an unsigned integer or a float pattern (42_primitive.md R153 to R156, R161,
R162). -/
def unpackZext (n : Nat) (s : State) : Result := s.unpack n zextBE

/-- Unpack `n` bytes as a signed integer (42_primitive.md R157 to R160). -/
def unpackSext (n : Nat) (s : State) : Result := s.unpack n (sextBE n)

/-- PK_U8 (42_primitive.md R141): 8-bit unsigned integer. -/
def execPkU8 (op0 : Op) (s : State) : Result := packLow 1 op0 s

/-- PK_U16 (42_primitive.md R142): 16-bit unsigned integer. -/
def execPkU16 (op0 : Op) (s : State) : Result := packLow 2 op0 s

/-- PK_U32 (42_primitive.md R143): 32-bit unsigned integer. -/
def execPkU32 (op0 : Op) (s : State) : Result := packLow 4 op0 s

/-- PK_U64 (42_primitive.md R144): 64-bit unsigned integer. -/
def execPkU64 (op0 : Op) (s : State) : Result := packLow 8 op0 s

/-- PK_I8 (42_primitive.md R145): 8-bit signed integer, by its two's-complement pattern. -/
def execPkI8 (op0 : Op) (s : State) : Result := packLow 1 op0 s

/-- PK_I16 (42_primitive.md R146): 16-bit signed integer, by its two's-complement pattern. -/
def execPkI16 (op0 : Op) (s : State) : Result := packLow 2 op0 s

/-- PK_I32 (42_primitive.md R147): 32-bit signed integer, by its two's-complement pattern. -/
def execPkI32 (op0 : Op) (s : State) : Result := packLow 4 op0 s

/-- PK_I64 (42_primitive.md R148): 64-bit signed integer, by its two's-complement pattern. -/
def execPkI64 (op0 : Op) (s : State) : Result := packLow 8 op0 s

/-- PK_F32 (42_primitive.md R149): 32-bit IEEE 754 value, by its bit pattern. -/
def execPkF32 (op0 : Op) (s : State) : Result := packLow 4 op0 s

/-- PK_F64 (42_primitive.md R150): 64-bit IEEE 754 value, by its bit pattern. -/
def execPkF64 (op0 : Op) (s : State) : Result := packLow 8 op0 s

/-- PK_BLOB (42_primitive.md R151): a two-byte big-endian length and the bytes, with one bounds check
for both. The length check comes before the check of `DATA` (60_exceptions.md R267). -/
def execPkBlob (op0 : Op) (data : List Byte) (s : State) : Result :=
  if maxBlob < op0.toNat then refuse .badLength
  else if data.length ≠ op0.toNat then refuse .badPacket
  else s.pack (beBytes 2 op0.toNat ++ data)

/-- UP_U8 (42_primitive.md R153): 8-bit unsigned integer. -/
def execUpU8 (s : State) : Result := unpackZext 1 s

/-- UP_U16 (42_primitive.md R154): 16-bit unsigned integer. -/
def execUpU16 (s : State) : Result := unpackZext 2 s

/-- UP_U32 (42_primitive.md R155): 32-bit unsigned integer. -/
def execUpU32 (s : State) : Result := unpackZext 4 s

/-- UP_U64 (42_primitive.md R156): 64-bit unsigned integer. -/
def execUpU64 (s : State) : Result := unpackZext 8 s

/-- UP_I8 (42_primitive.md R157): 8-bit signed integer, by its two's-complement pattern. -/
def execUpI8 (s : State) : Result := unpackSext 1 s

/-- UP_I16 (42_primitive.md R158): 16-bit signed integer, by its two's-complement pattern. -/
def execUpI16 (s : State) : Result := unpackSext 2 s

/-- UP_I32 (42_primitive.md R159): 32-bit signed integer, by its two's-complement pattern. -/
def execUpI32 (s : State) : Result := unpackSext 4 s

/-- UP_I64 (42_primitive.md R160): 64-bit signed integer, by its two's-complement pattern. -/
def execUpI64 (s : State) : Result := unpackSext 8 s

/-- UP_F32 (42_primitive.md R161): 32-bit IEEE 754 value, by its bit pattern. -/
def execUpF32 (s : State) : Result := unpackZext 4 s

/-- UP_F64 (42_primitive.md R162): 64-bit IEEE 754 value, by its bit pattern. -/
def execUpF64 (s : State) : Result := unpackZext 8 s

/-- UP_BLOB (42_primitive.md R163): the blob at the cursor; the empty blob, and the cursor unmoved, when
its length bytes or its body do not fit. -/
def execUpBlob (s : State) : Result :=
  if s.fits 2 then
    orFault (s.memRead s.cursor.toNat 2) fun head =>
      let l := fromBE head
      if s.fits (2 + l) then
        orFault (s.memRead (s.cursor.toNat + 2) l) fun body =>
          (s.moveTo (s.cursor + BitVec.ofNat 32 (2 + l))).complete (.bytes body)
      else s.complete (.bytes [])
  else s.complete (.bytes [])

end Sys2Proof.Machine
end

