-- ==== Sys2Proof/Machine/Quantization.lean ====
section
/-! DEFINITION. The quantization codec (43_quantization.md): one value of a range to an N-bit code in N/8
little-endian bytes, and back. -/

namespace Sys2Proof.Machine

/-- `QPKn.fmt value, min, max`: the pack template with the bytes `LE_{N/8}(QENC(...))`
(43_quantization.md R176, 20_memory.md R52). -/
def quantPack (Q : QNum) (fmt : Fmt) (n : Nat) (a : QArg) (s : State) : Result :=
  s.packWith (n / 8) fun k =>
    let q := settleCode n (Q.codeOf fmt n a) k
    (leBytes (n / 8) q.1, q.2)

/-- `QUPn.fmt min, max`: the unpack template with `QDEC(fmt, N, FromLE(bs), lo, hi)` and the zero value
`+0.0` (43_quantization.md R177). -/
def quantUnpack (Q : QNum) (fmt : Fmt) (n : Nat) (r : QRange) (s : State) : Result :=
  s.unpackWith (n / 8)
    (fun bs k =>
      let v := settleValue Q fmt (Q.valueOf fmt n (fromLE bs) r) k
      ([v.1], v.2))
    [0]

/-- QPK8.S (43_quantization.md R180). -/
def execQpk8S (a : QArg) (s : State) : Result := quantPack Config.qnum .S 8 a s

/-- QPK16.S (43_quantization.md R181). -/
def execQpk16S (a : QArg) (s : State) : Result := quantPack Config.qnum .S 16 a s

/-- QPK24.S (43_quantization.md R182). -/
def execQpk24S (a : QArg) (s : State) : Result := quantPack Config.qnum .S 24 a s

/-- QPK32.S (43_quantization.md R183). -/
def execQpk32S (a : QArg) (s : State) : Result := quantPack Config.qnum .S 32 a s

/-- QUP8.S (43_quantization.md R184). -/
def execQup8S (a : QRange) (s : State) : Result := quantUnpack Config.qnum .S 8 a s

/-- QUP16.S (43_quantization.md R185). -/
def execQup16S (a : QRange) (s : State) : Result := quantUnpack Config.qnum .S 16 a s

/-- QUP24.S (43_quantization.md R186). -/
def execQup24S (a : QRange) (s : State) : Result := quantUnpack Config.qnum .S 24 a s

/-- QUP32.S (43_quantization.md R187). -/
def execQup32S (a : QRange) (s : State) : Result := quantUnpack Config.qnum .S 32 a s

/-- QPK8.D (43_quantization.md R188). -/
def execQpk8D (a : QArg) (s : State) : Result := quantPack Config.qnum .D 8 a s

/-- QPK16.D (43_quantization.md R189). -/
def execQpk16D (a : QArg) (s : State) : Result := quantPack Config.qnum .D 16 a s

/-- QPK24.D (43_quantization.md R190). -/
def execQpk24D (a : QArg) (s : State) : Result := quantPack Config.qnum .D 24 a s

/-- QPK32.D (43_quantization.md R191). -/
def execQpk32D (a : QArg) (s : State) : Result := quantPack Config.qnum .D 32 a s

/-- QPK40.D (43_quantization.md R192). -/
def execQpk40D (a : QArg) (s : State) : Result := quantPack Config.qnum .D 40 a s

/-- QPK48.D (43_quantization.md R193). -/
def execQpk48D (a : QArg) (s : State) : Result := quantPack Config.qnum .D 48 a s

/-- QPK56.D (43_quantization.md R194). -/
def execQpk56D (a : QArg) (s : State) : Result := quantPack Config.qnum .D 56 a s

/-- QUP8.D (43_quantization.md R195). -/
def execQup8D (a : QRange) (s : State) : Result := quantUnpack Config.qnum .D 8 a s

/-- QUP16.D (43_quantization.md R196). -/
def execQup16D (a : QRange) (s : State) : Result := quantUnpack Config.qnum .D 16 a s

/-- QUP24.D (43_quantization.md R197). -/
def execQup24D (a : QRange) (s : State) : Result := quantUnpack Config.qnum .D 24 a s

/-- QUP32.D (43_quantization.md R198). -/
def execQup32D (a : QRange) (s : State) : Result := quantUnpack Config.qnum .D 32 a s

/-- QUP40.D (43_quantization.md R199). -/
def execQup40D (a : QRange) (s : State) : Result := quantUnpack Config.qnum .D 40 a s

/-- QUP48.D (43_quantization.md R200). -/
def execQup48D (a : QRange) (s : State) : Result := quantUnpack Config.qnum .D 48 a s

/-- QUP56.D (43_quantization.md R201). -/
def execQup56D (a : QRange) (s : State) : Result := quantUnpack Config.qnum .D 56 a s

end Sys2Proof.Machine
end

