-- ==== Sys2Proof/Machine/Dispatch.lean ====
section
/-! DEFINITION. The meaning of every command of the opcode map (30_encoding.md R86): one arm per constructor of
`Instr`, each one call of the command's own definition. -/

namespace Sys2Proof.Machine

open Sys2Proof

/-- What a decoded command does (00_scope.md R15). -/
def exec (i : Instr) (s : State) : Host.Outcome State Fault Refusal :=
  match i with
  | .construct fpwi op0 => Sys2Proof.Machine.execConstruct fpwi op0 s
  | .adopt fpwi cf sh op0 data => Sys2Proof.Machine.execAdopt fpwi cf sh op0 data s
  | .seekStart => Sys2Proof.Machine.execSeekStart s
  | .seekTo op0 => Sys2Proof.Machine.execSeekTo op0 s
  | .advance op0 => Sys2Proof.Machine.execAdvance op0 s
  | .reverse op0 => Sys2Proof.Machine.execReverse op0 s
  | .rdcsr csr => Sys2Proof.Machine.execRdcsr csr s
  | .dump => Sys2Proof.Machine.execDump s
  | .fpGen => Sys2Proof.Machine.execFpGen s
  | .fpGet => Sys2Proof.Machine.execFpGet s
  | .fpChk => Sys2Proof.Machine.execFpChk s
  | .pkU8 op0 => Sys2Proof.Machine.execPkU8 op0 s
  | .pkU16 op0 => Sys2Proof.Machine.execPkU16 op0 s
  | .pkU32 op0 => Sys2Proof.Machine.execPkU32 op0 s
  | .pkU64 op0 => Sys2Proof.Machine.execPkU64 op0 s
  | .pkI8 op0 => Sys2Proof.Machine.execPkI8 op0 s
  | .pkI16 op0 => Sys2Proof.Machine.execPkI16 op0 s
  | .pkI32 op0 => Sys2Proof.Machine.execPkI32 op0 s
  | .pkI64 op0 => Sys2Proof.Machine.execPkI64 op0 s
  | .pkF32 op0 => Sys2Proof.Machine.execPkF32 op0 s
  | .pkF64 op0 => Sys2Proof.Machine.execPkF64 op0 s
  | .pkBlob op0 data => Sys2Proof.Machine.execPkBlob op0 data s
  | .upU8 => Sys2Proof.Machine.execUpU8 s
  | .upU16 => Sys2Proof.Machine.execUpU16 s
  | .upU32 => Sys2Proof.Machine.execUpU32 s
  | .upU64 => Sys2Proof.Machine.execUpU64 s
  | .upI8 => Sys2Proof.Machine.execUpI8 s
  | .upI16 => Sys2Proof.Machine.execUpI16 s
  | .upI32 => Sys2Proof.Machine.execUpI32 s
  | .upI64 => Sys2Proof.Machine.execUpI64 s
  | .upF32 => Sys2Proof.Machine.execUpF32 s
  | .upF64 => Sys2Proof.Machine.execUpF64 s
  | .upBlob => Sys2Proof.Machine.execUpBlob s
  | .qpk8S a => Sys2Proof.Machine.execQpk8S a s
  | .qpk16S a => Sys2Proof.Machine.execQpk16S a s
  | .qpk24S a => Sys2Proof.Machine.execQpk24S a s
  | .qpk32S a => Sys2Proof.Machine.execQpk32S a s
  | .qup8S a => Sys2Proof.Machine.execQup8S a s
  | .qup16S a => Sys2Proof.Machine.execQup16S a s
  | .qup24S a => Sys2Proof.Machine.execQup24S a s
  | .qup32S a => Sys2Proof.Machine.execQup32S a s
  | .qpk8D a => Sys2Proof.Machine.execQpk8D a s
  | .qpk16D a => Sys2Proof.Machine.execQpk16D a s
  | .qpk24D a => Sys2Proof.Machine.execQpk24D a s
  | .qpk32D a => Sys2Proof.Machine.execQpk32D a s
  | .qpk40D a => Sys2Proof.Machine.execQpk40D a s
  | .qpk48D a => Sys2Proof.Machine.execQpk48D a s
  | .qpk56D a => Sys2Proof.Machine.execQpk56D a s
  | .qup8D a => Sys2Proof.Machine.execQup8D a s
  | .qup16D a => Sys2Proof.Machine.execQup16D a s
  | .qup24D a => Sys2Proof.Machine.execQup24D a s
  | .qup32D a => Sys2Proof.Machine.execQup32D a s
  | .qup40D a => Sys2Proof.Machine.execQup40D a s
  | .qup48D a => Sys2Proof.Machine.execQup48D a s
  | .qup56D a => Sys2Proof.Machine.execQup56D a s
  | .bpk71 a b => Sys2Proof.Machine.execBpk71 a b s
  | .bpk62 a b => Sys2Proof.Machine.execBpk62 a b s
  | .bpk44 a b => Sys2Proof.Machine.execBpk44 a b s
  | .bpk655 a b c => Sys2Proof.Machine.execBpk655 a b c s
  | .bpk111110 a b c => Sys2Proof.Machine.execBpk111110 a b c s
  | .bpk10X4 a b c d => Sys2Proof.Machine.execBpk10X4 a b c d s
  | .bpk1111108 a b c d => Sys2Proof.Machine.execBpk1111108 a b c d s
  | .bup71 a b => Sys2Proof.Machine.execBup71 a b s
  | .bup62 a b => Sys2Proof.Machine.execBup62 a b s
  | .bup44 a b => Sys2Proof.Machine.execBup44 a b s
  | .bup655 a b c => Sys2Proof.Machine.execBup655 a b c s
  | .bup111110 a b c => Sys2Proof.Machine.execBup111110 a b c s
  | .bup10X4 a b c d => Sys2Proof.Machine.execBup10X4 a b c d s
  | .bup1111108 a b c d => Sys2Proof.Machine.execBup1111108 a b c d s

end Sys2Proof.Machine
end

