-- ==== Sys2Proof/Decode.lean ====
section
/-! DEFINITION. Command decoding and encoding (30_encoding.md R81 to R89). Decoding is total: every packet is one
command of R86 or is refused with a cause (R89). The refusal order is that of 60_exceptions.md R267,
steps 1 to 3; steps 4 to 7 are operand checks and stand with the commands. -/

namespace Sys2Proof

/-- The packet formats of 30_encoding.md R82. -/
inductive Format where
  | Z | ZR | ZB | M | MI | MID | I | ID | P1 | U1 | P2 | U2 | P3 | U3 | P4 | U4
  deriving DecidableEq, Repr

/-- How many operand words a format has (30_encoding.md R82). -/
def Format.operands : Format → Nat
  | .Z | .ZR | .ZB | .M => 0
  | .MI | .MID | .I | .ID => 1
  | .P1 => 3
  | .U1 => 2
  | .P2 => 6
  | .U2 => 4
  | .P3 => 9
  | .U3 => 6
  | .P4 => 12
  | .U4 => 8

/-- Whether a format has `DATA` (30_encoding.md R82). -/
def Format.hasData : Format → Bool
  | .MID | .ID => true
  | _ => false

/-- The must-be-zero bits of `MOD` in a format (30_encoding.md R81, R87): all of them but in RDCSR
(`MOD[7:2]`), CONSTRUCT (`MOD[7:4]`) and ADOPT (`MOD[7:6]`). -/
def Format.modZero : Format → BitVec 8
  | .M => 0xFC
  | .MI => 0xF0
  | .MID => 0xC0
  | _ => 0xFF

/-- `CW[31:24]`, the opcode (30_encoding.md R81). -/
def Packet.opc (p : Packet) : BitVec 8 := p.cw.extractLsb' 24 8

/-- `CW[23:8]`, the field `ZERO` (30_encoding.md R81). -/
def Packet.zero (p : Packet) : BitVec 16 := p.cw.extractLsb' 8 16

/-- `CW[7:0]`, the field `MOD` (30_encoding.md R81). -/
def Packet.mod (p : Packet) : BitVec 8 := p.cw.extractLsb' 0 8

/-- `OP[k]`, the k-th operand word (00_scope.md R14). -/
def Packet.opAt (p : Packet) (k : Nat) : Op := p.op.getD k 0

/-- The operand words of the `i`-th field of a P format: value, min, max (30_encoding.md R82). -/
def argAt (op : Nat → Op) (i : Nat) : QArg := ⟨op (3 * i), op (3 * i + 1), op (3 * i + 2)⟩

/-- The operand words of the `i`-th field of a U format: min, max (30_encoding.md R82). -/
def rangeAt (op : Nat → Op) (i : Nat) : QRange := ⟨op (2 * i), op (2 * i + 1)⟩

/-- One row of the opcode map: the opcode, the format, and the command the row's `MOD`, operand words
and `DATA` make (30_encoding.md R86, R87). -/
structure OpcodeRow where
  /-- `CW[31:24]` of the row. -/
  opc : BitVec 8
  /-- The row's format. -/
  format : Format
  /-- The command of a packet of this row. -/
  build : BitVec 8 → (Nat → Op) → List Byte → Instr

/-- Class 0, buffer and cursor (30_encoding.md R86). -/
def bufferRows : List OpcodeRow :=
  [ ⟨0x01, .MI, fun mod op _ => .construct (mod.extractLsb' 0 4) (op 0)⟩,
    ⟨0x02, .MID, fun mod op data => .adopt (mod.extractLsb' 0 4) (mod.getLsbD 4) (mod.getLsbD 5) (op 0) data⟩,
    ⟨0x03, .Z, fun _ _ _ => .seekStart⟩,
    ⟨0x04, .I, fun _ op _ => .seekTo (op 0)⟩,
    ⟨0x05, .I, fun _ op _ => .advance (op 0)⟩,
    ⟨0x06, .I, fun _ op _ => .reverse (op 0)⟩,
    ⟨0x07, .M, fun mod _ _ => .rdcsr (mod.extractLsb' 0 2)⟩,
    ⟨0x08, .ZB, fun _ _ _ => .dump⟩ ]

/-- Class 1, fingerprint (30_encoding.md R86). -/
def fingerprintRows : List OpcodeRow :=
  [ ⟨0x10, .Z, fun _ _ _ => .fpGen⟩,
    ⟨0x11, .ZR, fun _ _ _ => .fpGet⟩,
    ⟨0x12, .ZR, fun _ _ _ => .fpChk⟩ ]

/-- Class 2, primitive pack (30_encoding.md R86). -/
def primitivePackRows : List OpcodeRow :=
  [ ⟨0x20, .I, fun _ op _ => .pkU8 (op 0)⟩,
    ⟨0x21, .I, fun _ op _ => .pkU16 (op 0)⟩,
    ⟨0x22, .I, fun _ op _ => .pkU32 (op 0)⟩,
    ⟨0x23, .I, fun _ op _ => .pkU64 (op 0)⟩,
    ⟨0x24, .I, fun _ op _ => .pkI8 (op 0)⟩,
    ⟨0x25, .I, fun _ op _ => .pkI16 (op 0)⟩,
    ⟨0x26, .I, fun _ op _ => .pkI32 (op 0)⟩,
    ⟨0x27, .I, fun _ op _ => .pkI64 (op 0)⟩,
    ⟨0x28, .I, fun _ op _ => .pkF32 (op 0)⟩,
    ⟨0x29, .I, fun _ op _ => .pkF64 (op 0)⟩,
    ⟨0x2A, .ID, fun _ op data => .pkBlob (op 0) data⟩ ]

/-- Class 3, primitive unpack (30_encoding.md R86). -/
def primitiveUnpackRows : List OpcodeRow :=
  [ ⟨0x30, .ZR, fun _ _ _ => .upU8⟩,
    ⟨0x31, .ZR, fun _ _ _ => .upU16⟩,
    ⟨0x32, .ZR, fun _ _ _ => .upU32⟩,
    ⟨0x33, .ZR, fun _ _ _ => .upU64⟩,
    ⟨0x34, .ZR, fun _ _ _ => .upI8⟩,
    ⟨0x35, .ZR, fun _ _ _ => .upI16⟩,
    ⟨0x36, .ZR, fun _ _ _ => .upI32⟩,
    ⟨0x37, .ZR, fun _ _ _ => .upI64⟩,
    ⟨0x38, .ZR, fun _ _ _ => .upF32⟩,
    ⟨0x39, .ZR, fun _ _ _ => .upF64⟩,
    ⟨0x3A, .ZB, fun _ _ _ => .upBlob⟩ ]

/-- Class 4, quantize and pack, binary32 (30_encoding.md R86). -/
def quantPackSRows : List OpcodeRow :=
  [ ⟨0x41, .P1, fun _ op _ => .qpk8S (argAt op 0)⟩,
    ⟨0x42, .P1, fun _ op _ => .qpk16S (argAt op 0)⟩,
    ⟨0x43, .P1, fun _ op _ => .qpk24S (argAt op 0)⟩,
    ⟨0x44, .P1, fun _ op _ => .qpk32S (argAt op 0)⟩ ]

/-- Class 5, unpack and dequantize, binary32 (30_encoding.md R86). -/
def quantUnpackSRows : List OpcodeRow :=
  [ ⟨0x51, .U1, fun _ op _ => .qup8S (rangeAt op 0)⟩,
    ⟨0x52, .U1, fun _ op _ => .qup16S (rangeAt op 0)⟩,
    ⟨0x53, .U1, fun _ op _ => .qup24S (rangeAt op 0)⟩,
    ⟨0x54, .U1, fun _ op _ => .qup32S (rangeAt op 0)⟩ ]

/-- Class 6, quantize and pack, binary64 (30_encoding.md R86). -/
def quantPackDRows : List OpcodeRow :=
  [ ⟨0x61, .P1, fun _ op _ => .qpk8D (argAt op 0)⟩,
    ⟨0x62, .P1, fun _ op _ => .qpk16D (argAt op 0)⟩,
    ⟨0x63, .P1, fun _ op _ => .qpk24D (argAt op 0)⟩,
    ⟨0x64, .P1, fun _ op _ => .qpk32D (argAt op 0)⟩,
    ⟨0x65, .P1, fun _ op _ => .qpk40D (argAt op 0)⟩,
    ⟨0x66, .P1, fun _ op _ => .qpk48D (argAt op 0)⟩,
    ⟨0x67, .P1, fun _ op _ => .qpk56D (argAt op 0)⟩ ]

/-- Class 7, unpack and dequantize, binary64 (30_encoding.md R86). -/
def quantUnpackDRows : List OpcodeRow :=
  [ ⟨0x71, .U1, fun _ op _ => .qup8D (rangeAt op 0)⟩,
    ⟨0x72, .U1, fun _ op _ => .qup16D (rangeAt op 0)⟩,
    ⟨0x73, .U1, fun _ op _ => .qup24D (rangeAt op 0)⟩,
    ⟨0x74, .U1, fun _ op _ => .qup32D (rangeAt op 0)⟩,
    ⟨0x75, .U1, fun _ op _ => .qup40D (rangeAt op 0)⟩,
    ⟨0x76, .U1, fun _ op _ => .qup48D (rangeAt op 0)⟩,
    ⟨0x77, .U1, fun _ op _ => .qup56D (rangeAt op 0)⟩ ]

/-- Class 8, bit-pack (30_encoding.md R86). -/
def bitPackRows : List OpcodeRow :=
  [ ⟨0x80, .P2, fun _ op _ => .bpk71 (argAt op 0) (argAt op 1)⟩,
    ⟨0x81, .P2, fun _ op _ => .bpk62 (argAt op 0) (argAt op 1)⟩,
    ⟨0x82, .P2, fun _ op _ => .bpk44 (argAt op 0) (argAt op 1)⟩,
    ⟨0x83, .P3, fun _ op _ => .bpk655 (argAt op 0) (argAt op 1) (argAt op 2)⟩,
    ⟨0x84, .P3, fun _ op _ => .bpk111110 (argAt op 0) (argAt op 1) (argAt op 2)⟩,
    ⟨0x85, .P4, fun _ op _ => .bpk10X4 (argAt op 0) (argAt op 1) (argAt op 2) (argAt op 3)⟩,
    ⟨0x86, .P4, fun _ op _ => .bpk1111108 (argAt op 0) (argAt op 1) (argAt op 2) (argAt op 3)⟩ ]

/-- Class 9, bit-unpack (30_encoding.md R86). -/
def bitUnpackRows : List OpcodeRow :=
  [ ⟨0x90, .U2, fun _ op _ => .bup71 (rangeAt op 0) (rangeAt op 1)⟩,
    ⟨0x91, .U2, fun _ op _ => .bup62 (rangeAt op 0) (rangeAt op 1)⟩,
    ⟨0x92, .U2, fun _ op _ => .bup44 (rangeAt op 0) (rangeAt op 1)⟩,
    ⟨0x93, .U3, fun _ op _ => .bup655 (rangeAt op 0) (rangeAt op 1) (rangeAt op 2)⟩,
    ⟨0x94, .U3, fun _ op _ => .bup111110 (rangeAt op 0) (rangeAt op 1) (rangeAt op 2)⟩,
    ⟨0x95, .U4, fun _ op _ => .bup10X4 (rangeAt op 0) (rangeAt op 1) (rangeAt op 2) (rangeAt op 3)⟩,
    ⟨0x96, .U4, fun _ op _ => .bup1111108 (rangeAt op 0) (rangeAt op 1) (rangeAt op 2) (rangeAt op 3)⟩ ]

/-- The opcode map of 30_encoding.md R86, all 69 rows. -/
def opcodeMap : List OpcodeRow :=
  bufferRows ++ fingerprintRows ++ primitivePackRows ++ primitiveUnpackRows
    ++ quantPackSRows ++ quantUnpackSRows ++ quantPackDRows ++ quantUnpackDRows
    ++ bitPackRows ++ bitUnpackRows

/-- The row of an opcode, if it has one (30_encoding.md R86, R88). -/
def rowOf (opc : BitVec 8) : Option OpcodeRow := opcodeMap.find? fun r => r.opc == opc

/-- The command a packet is, or the cause it is refused with (30_encoding.md R89; the order of
60_exceptions.md R267, steps 1 to 3). -/
def decode (p : Packet) : Except Cause Instr :=
  match rowOf p.opc with
  | none => .error .illegalOpcode
  | some r =>
    if p.zero != 0 || p.mod &&& r.format.modZero != 0 then .error .reservedBits
    else if p.op.length != r.format.operands || (!r.format.hasData && !p.data.isEmpty) then
      .error .badPacket
    else .ok (r.build p.mod p.opAt p.data)

/-- The opcode of a command (30_encoding.md R86). -/
def Instr.opcode : Instr → BitVec 8
  | .construct _ _ => 0x01
  | .adopt _ _ _ _ _ => 0x02
  | .seekStart => 0x03
  | .seekTo _ => 0x04
  | .advance _ => 0x05
  | .reverse _ => 0x06
  | .rdcsr _ => 0x07
  | .dump => 0x08
  | .fpGen => 0x10
  | .fpGet => 0x11
  | .fpChk => 0x12
  | .pkU8 _ => 0x20
  | .pkU16 _ => 0x21
  | .pkU32 _ => 0x22
  | .pkU64 _ => 0x23
  | .pkI8 _ => 0x24
  | .pkI16 _ => 0x25
  | .pkI32 _ => 0x26
  | .pkI64 _ => 0x27
  | .pkF32 _ => 0x28
  | .pkF64 _ => 0x29
  | .pkBlob _ _ => 0x2A
  | .upU8 => 0x30
  | .upU16 => 0x31
  | .upU32 => 0x32
  | .upU64 => 0x33
  | .upI8 => 0x34
  | .upI16 => 0x35
  | .upI32 => 0x36
  | .upI64 => 0x37
  | .upF32 => 0x38
  | .upF64 => 0x39
  | .upBlob => 0x3A
  | .qpk8S _ => 0x41
  | .qpk16S _ => 0x42
  | .qpk24S _ => 0x43
  | .qpk32S _ => 0x44
  | .qup8S _ => 0x51
  | .qup16S _ => 0x52
  | .qup24S _ => 0x53
  | .qup32S _ => 0x54
  | .qpk8D _ => 0x61
  | .qpk16D _ => 0x62
  | .qpk24D _ => 0x63
  | .qpk32D _ => 0x64
  | .qpk40D _ => 0x65
  | .qpk48D _ => 0x66
  | .qpk56D _ => 0x67
  | .qup8D _ => 0x71
  | .qup16D _ => 0x72
  | .qup24D _ => 0x73
  | .qup32D _ => 0x74
  | .qup40D _ => 0x75
  | .qup48D _ => 0x76
  | .qup56D _ => 0x77
  | .bpk71 _ _ => 0x80
  | .bpk62 _ _ => 0x81
  | .bpk44 _ _ => 0x82
  | .bpk655 _ _ _ => 0x83
  | .bpk111110 _ _ _ => 0x84
  | .bpk10X4 _ _ _ _ => 0x85
  | .bpk1111108 _ _ _ _ => 0x86
  | .bup71 _ _ => 0x90
  | .bup62 _ _ => 0x91
  | .bup44 _ _ => 0x92
  | .bup655 _ _ _ => 0x93
  | .bup111110 _ _ _ => 0x94
  | .bup10X4 _ _ _ _ => 0x95
  | .bup1111108 _ _ _ _ => 0x96

/-- `MOD` of a command (30_encoding.md R87): `FPWI`, `CF` and `SH`, the register number, or 0. -/
def Instr.modBits : Instr → BitVec 8
  | .construct fpwi _ => fpwi.setWidth 8
  | .adopt fpwi cf sh _ _ =>
    0#2 ++ BitVec.ofBool sh ++ BitVec.ofBool cf ++ fpwi
  | .rdcsr csr => csr.setWidth 8
  | _ => 0

/-- The three operand words of a field to pack, in packet order (30_encoding.md R82). -/
def QArg.words (a : QArg) : List Op := [a.value, a.min, a.max]

/-- The two operand words of a field to unpack, in packet order (30_encoding.md R82). -/
def QRange.words (r : QRange) : List Op := [r.min, r.max]

/-- The operand words of a command (30_encoding.md R82). -/
def Instr.operands : Instr → List Op
  | .construct _ op0 => [op0]
  | .adopt _ _ _ op0 _ => [op0]
  | .seekStart => []
  | .seekTo op0 => [op0]
  | .advance op0 => [op0]
  | .reverse op0 => [op0]
  | .rdcsr _ => []
  | .dump => []
  | .fpGen => []
  | .fpGet => []
  | .fpChk => []
  | .pkU8 op0 => [op0]
  | .pkU16 op0 => [op0]
  | .pkU32 op0 => [op0]
  | .pkU64 op0 => [op0]
  | .pkI8 op0 => [op0]
  | .pkI16 op0 => [op0]
  | .pkI32 op0 => [op0]
  | .pkI64 op0 => [op0]
  | .pkF32 op0 => [op0]
  | .pkF64 op0 => [op0]
  | .pkBlob op0 _ => [op0]
  | .upU8 => []
  | .upU16 => []
  | .upU32 => []
  | .upU64 => []
  | .upI8 => []
  | .upI16 => []
  | .upI32 => []
  | .upI64 => []
  | .upF32 => []
  | .upF64 => []
  | .upBlob => []
  | .qpk8S a => a.words
  | .qpk16S a => a.words
  | .qpk24S a => a.words
  | .qpk32S a => a.words
  | .qup8S a => a.words
  | .qup16S a => a.words
  | .qup24S a => a.words
  | .qup32S a => a.words
  | .qpk8D a => a.words
  | .qpk16D a => a.words
  | .qpk24D a => a.words
  | .qpk32D a => a.words
  | .qpk40D a => a.words
  | .qpk48D a => a.words
  | .qpk56D a => a.words
  | .qup8D a => a.words
  | .qup16D a => a.words
  | .qup24D a => a.words
  | .qup32D a => a.words
  | .qup40D a => a.words
  | .qup48D a => a.words
  | .qup56D a => a.words
  | .bpk71 a b => a.words ++ b.words
  | .bpk62 a b => a.words ++ b.words
  | .bpk44 a b => a.words ++ b.words
  | .bpk655 a b c => a.words ++ b.words ++ c.words
  | .bpk111110 a b c => a.words ++ b.words ++ c.words
  | .bpk10X4 a b c d => a.words ++ b.words ++ c.words ++ d.words
  | .bpk1111108 a b c d => a.words ++ b.words ++ c.words ++ d.words
  | .bup71 a b => a.words ++ b.words
  | .bup62 a b => a.words ++ b.words
  | .bup44 a b => a.words ++ b.words
  | .bup655 a b c => a.words ++ b.words ++ c.words
  | .bup111110 a b c => a.words ++ b.words ++ c.words
  | .bup10X4 a b c d => a.words ++ b.words ++ c.words ++ d.words
  | .bup1111108 a b c d => a.words ++ b.words ++ c.words ++ d.words

/-- `DATA` of a command, empty for every format but MID and ID (30_encoding.md R80, R84). -/
def Instr.payload : Instr → List Byte
  | .adopt _ _ _ _ data => data
  | .pkBlob _ data => data
  | _ => []

/-- The packet of a command (30_encoding.md R81, R82, R86, R87). -/
def encode (i : Instr) : Packet :=
  { cw := i.opcode ++ (0 : BitVec 16) ++ i.modBits, op := i.operands, data := i.payload }

/-- The packet whose bits are the low `nbits` bits of `w` and zeros above them: the command word in
bits 31 to 0, then the operand words the opcode's format has, 64 bits each, then, where the format
has `DATA`, the `OP[0]` data bytes in words of 8, the first byte of a word on top (the transport of
30_encoding.md R84; log 15). -/
def packetOfBits (nbits w : Nat) : Packet :=
  let v := w % 2 ^ nbits
  let cw := BitVec.ofNat 32 v
  let format := (rowOf (cw.extractLsb' 24 8)).map OpcodeRow.format
  let n := (format.map Format.operands).getD 0
  let op := (List.range n).map fun k => BitVec.ofNat 64 (v >>> (32 + 64 * k))
  let bytes := if (format.map Format.hasData).getD false then (op.headD 0).toNat else 0
  { cw := cw
    op := op
    data := (List.range bytes).map fun j =>
      BitVec.ofNat 8 (v >>> (32 + 64 * n + 64 * (j / 8) + (56 - 8 * (j % 8)))) }

/-- The command the decoder reads from an instruction whose bits are `w`, numbered as
spec/opcode_table.json numbers them (log 15). -/
def decodeTableWord (nbits w : Nat) : Option Instr :=
  match decode (packetOfBits nbits w) with
  | .ok i => some i
  | .error _ => none

end Sys2Proof
end

