-- ==== Sys2Proof/Machine/Fetch.lean ====
section
/-! DEFINITION. Where the next command comes from: the host's command list at `pc` (10_state.md R26, log 1). The
block itself fetches nothing from `MEM` (20_memory.md R66). -/

namespace Sys2Proof.Machine

/-- The next packet of the host's list, if the list has one at `pc` (10_state.md R26). -/
def State.fetch (s : State) : Option Packet := s.commands[s.pc]?

/-- With no packet to take the block waits: it never initiates anything (60_exceptions.md R268). The
run of a command list ends here (10_state.md R26; log 2). -/
def State.waitForHost (s : State) : Result := .next s

/-- A list of packets with the packet `p` at index `k`, and packets of no opcode filling a gap before
it. -/
def placePacket : Nat → Packet → List Packet → List Packet
  | 0, p, [] => [p]
  | 0, p, _ :: rest => p :: rest
  | k + 1, p, [] => ⟨0, [], []⟩ :: placePacket k p []
  | k + 1, p, q :: rest => q :: placePacket k p rest

end Sys2Proof.Machine
end

