-- ==== Sys2Proof/Machine/Step.lean ====
section
/-! DEFINITION. One step of the block: take the next packet, decode it, and execute the command or refuse the
packet (30_encoding.md R80, R89; 60_exceptions.md R266). -/

namespace Sys2Proof.Machine

/-- One step. -/
def step (s : State) : Host.Outcome State Fault Refusal :=
  match s.fetch with
  | none => s.waitForHost
  | some p =>
    match decode p with
    | .error c => refuse c
    | .ok i => exec i s

/-- `s` with the packet whose bits are `w` as the host's next packet (log 1, log 15). -/
def State.withFetchWord (s : State) (nbits w : Nat) : State :=
  { s with commands := placePacket s.pc (packetOfBits nbits w) s.commands }

end Sys2Proof.Machine
end

