-- ==== Sys2Proof/Machine/Composite.lean ====
section
/-! DEFINITION. The pseudo-instructions: CONSTRUCT0 (30_encoding.md R91) and the composite vector and quaternion
codec with its normalisation (45_composite.md). None is a command of the block: each is a fixed
sequence of commands the host issues, and NORMQ is a pure function of response values (R240). -/

namespace Sys2Proof.Machine

/-- A quantized tier of a composite: 8, 16 or 24 bits per component (45_composite.md R240). -/
inductive Tier where
  | t8 | t16 | t24
  deriving DecidableEq, Repr

/-- `QPKn.S value, min, max` of a tier. -/
def Tier.qpk (n : Tier) (value min max : Op) : Instr :=
  match n with
  | .t8 => .qpk8S ⟨value, min, max⟩
  | .t16 => .qpk16S ⟨value, min, max⟩
  | .t24 => .qpk24S ⟨value, min, max⟩

/-- `QUPn.S min, max` of a tier. -/
def Tier.qup (n : Tier) (min max : Op) : Instr :=
  match n with
  | .t8 => .qup8S ⟨min, max⟩
  | .t16 => .qup16S ⟨min, max⟩
  | .t24 => .qup24S ⟨min, max⟩

/-- The pseudo-instructions (30_encoding.md R91, 45_composite.md R241 to R250). -/
inductive Pseudo where
  /-- CONSTRUCT0 (R91). -/
  | construct0 (len : Op)
  /-- V2PK.F (R241). -/
  | v2pkF (x y : Op)
  /-- V2UP.F (R241). -/
  | v2upF
  /-- V2PK8, V2PK16, V2PK24 (R242). -/
  | v2pk (n : Tier) (x y min max : Op)
  /-- V2UP8, V2UP16, V2UP24 (R242). -/
  | v2up (n : Tier) (min max : Op)
  /-- V3PK.F (R243). -/
  | v3pkF (x y z : Op)
  /-- V3UP.F (R243). -/
  | v3upF
  /-- V3PK8, V3PK16, V3PK24 (R244). -/
  | v3pk (n : Tier) (x y z min max : Op)
  /-- V3UP8, V3UP16, V3UP24 (R244). -/
  | v3up (n : Tier) (min max : Op)
  /-- QTPK.F (R245). -/
  | qtpkF (x y z w : Op)
  /-- QTUP.F, not normalised (R245). -/
  | qtupF
  /-- QTPK8, QTPK16, QTPK24 (R246). -/
  | qtpk (n : Tier) (x y z w min max : Op)
  /-- QTUP8, QTUP16, QTUP24, normalised (R247). -/
  | qtup (n : Tier) (min max : Op)
  /-- QTUP8.U, QTUP16.U, QTUP24.U, raw components (R248). -/
  | qtupU (n : Tier) (min max : Op)
  /-- QTPK40 (R249). -/
  | qtpk40 (x y z w min max : Op)
  /-- QTUP40, normalised (R250). -/
  | qtup40 (min max : Op)
  /-- QTUP40.U, raw components (R250). -/
  | qtup40U (min max : Op)
  deriving DecidableEq, Repr

/-- The commands a pseudo-instruction stands for, in the order they are issued
(45_composite.md R241 to R250). -/
def Pseudo.expand : Pseudo → List Instr
  | .construct0 len => [.construct 0 len]
  | .v2pkF x y => [.pkF32 x, .pkF32 y]
  | .v2upF => [.upF32, .upF32]
  | .v2pk n x y lo hi => [n.qpk x lo hi, n.qpk y lo hi]
  | .v2up n lo hi => [n.qup lo hi, n.qup lo hi]
  | .v3pkF x y z => [.pkF32 x, .pkF32 y, .pkF32 z]
  | .v3upF => [.upF32, .upF32, .upF32]
  | .v3pk n x y z lo hi => [n.qpk x lo hi, n.qpk y lo hi, n.qpk z lo hi]
  | .v3up n lo hi => [n.qup lo hi, n.qup lo hi, n.qup lo hi]
  | .qtpkF x y z w => [.pkF32 x, .pkF32 y, .pkF32 z, .pkF32 w]
  | .qtupF => [.upF32, .upF32, .upF32, .upF32]
  | .qtpk n x y z w lo hi => [n.qpk x lo hi, n.qpk y lo hi, n.qpk z lo hi, n.qpk w lo hi]
  | .qtup n lo hi => [n.qup lo hi, n.qup lo hi, n.qup lo hi, n.qup lo hi]
  | .qtupU n lo hi => [n.qup lo hi, n.qup lo hi, n.qup lo hi, n.qup lo hi]
  | .qtpk40 x y z w lo hi => [.bpk10X4 ⟨x, lo, hi⟩ ⟨y, lo, hi⟩ ⟨z, lo, hi⟩ ⟨w, lo, hi⟩]
  | .qtup40 lo hi => [.bup10X4 ⟨lo, hi⟩ ⟨lo, hi⟩ ⟨lo, hi⟩ ⟨lo, hi⟩]
  | .qtup40U lo hi => [.bup10X4 ⟨lo, hi⟩ ⟨lo, hi⟩ ⟨lo, hi⟩ ⟨lo, hi⟩]

/-- Whether the decode normalises: the quantized quaternion decodes that are not the "unsafe" ones
(45_composite.md R240, R247, R250). -/
def Pseudo.normalises : Pseudo → Bool
  | .qtup _ _ _ => true
  | .qtup40 _ _ => true
  | _ => false

/-- A list of commands executed one after another, to the first that does not complete. -/
def execAll : List Instr → State → Result
  | [], s => .next s
  | i :: rest, s =>
    match exec i s with
    | .next t => execAll rest t
    | o => o

/-- `NORMQ` (45_composite.md R251) in the arithmetic `Q`: the four components divided by their
magnitude, in binary32; the identity rotation when the magnitude is zero. -/
def QNum.normq (Q : QNum) (x y z w : Fl) : Fl × Fl × Fl × Fl :=
  let m2 := Q.fadd .S (Q.fadd .S (Q.fadd .S (Q.fmul .S x x) (Q.fmul .S y y)) (Q.fmul .S z z))
    (Q.fmul .S w w)
  match Q.fsqrt .S m2 with
  | .fin _ 0 _ => (Q.const .S 0 1, Q.const .S 0 1, Q.const .S 0 1, Q.const .S 1 1)
  | m => (Q.fdiv .S x m, Q.fdiv .S y m, Q.fdiv .S z m, Q.fdiv .S w m)

/-- `NORMQ` on binary32 patterns in result words; `free k` are the free bits of answer `k` where it
is NaN (log 17). -/
def normqWords (Q : QNum) (free : Nat → BitVec 64) (x y z w : Op) : List Op :=
  let q := Q.normq (Q.val .S x) (Q.val .S y) (Q.val .S z) (Q.val .S w)
  [Q.bits .S (free 0) q.1, Q.bits .S (free 1) q.2.1, Q.bits .S (free 2) q.2.2.1,
    Q.bits .S (free 3) q.2.2.2]

/-- What a pseudo-instruction answers in the arithmetic `Q`, from the result words of its commands in
order (45_composite.md R241 to R250). -/
def Pseudo.answers (Q : QNum) (free : Nat → BitVec 64) (p : Pseudo) (ws : List Op) : List Op :=
  match p.normalises, ws with
  | true, [x, y, z, w] => normqWords Q free x y z w
  | _, _ => ws

/-- The result words of the responses that `t` has and `s` has not, in order. -/
def newWords (s t : State) : List Op := (t.responses.drop s.responses.length).flatMap Response.res

end Sys2Proof.Machine
end

