-- ==== Sys2Proof/Machine/Port.lean ====
section
/-! DEFINITION. The command port as the host sees it (30_encoding.md R80, 60_exceptions.md R266): a refused
packet is answered with the refusal response and the next packet is taken. `step` gives R266's run of
a command list, which a refusal ends; `serve` gives the block's own going on (log 11). -/

namespace Sys2Proof.Machine

/-- The code of a refusal cause (60_exceptions.md R265). -/
def causeCode : Cause → BitVec 32
  | .illegalOpcode => 1
  | .reservedBits => 2
  | .badPacket => 3
  | .illegalFpw => 4
  | .tooLarge => 5
  | .badLength => 6

/-- The refusal response: `RH = 0x80000000 | cause`, no result words, no bytes (60_exceptions.md R266,
30_encoding.md R85). -/
def refusalResponse (c : Cause) : Response :=
  { rh := 0x80000000 ||| causeCode c, res := [], rdata := [] }

/-- Answer the refused packet and drop it from the host's list, so that the next packet is executed as
if it had never been sent; `pc` and the block's state stay as they are (60_exceptions.md R266). -/
def State.dismiss (c : Cause) (s : State) : State :=
  { s with commands := s.commands.eraseIdx s.pc, responses := s.responses ++ [refusalResponse c] }

/-- One packet served: a completed command as `step` has it, a refused packet answered and dropped
(60_exceptions.md R266). -/
def serve (s : State) : Result :=
  match step s with
  | .refused (.packet c) => .next (s.dismiss c)
  | o => o

end Sys2Proof.Machine
end

