-- ==== Sys2Proof/Machine/Replace.lean ====
section
/-! DEFINITION. The machine with another `QNUM` supplied (00_scope.md R9, "replaceable"; 93_implementation_defined.md
U3, U6; log 9). `exec` and `step` are these at
`Config.qnum`. -/

namespace Sys2Proof.Machine

/-- One command in the arithmetic `Q`. The commands that compute with numbers take `Q`; of the others the
record is no parameter (43_quantization.md R176, R177; 44_bitpack.md R213). -/
def execWith (Q : QNum) (i : Instr) (s : State) : Result :=
  match i with
  | .qpk8S a => quantPack Q .S 8 a s
  | .qpk16S a => quantPack Q .S 16 a s
  | .qpk24S a => quantPack Q .S 24 a s
  | .qpk32S a => quantPack Q .S 32 a s
  | .qup8S a => quantUnpack Q .S 8 a s
  | .qup16S a => quantUnpack Q .S 16 a s
  | .qup24S a => quantUnpack Q .S 24 a s
  | .qup32S a => quantUnpack Q .S 32 a s
  | .qpk8D a => quantPack Q .D 8 a s
  | .qpk16D a => quantPack Q .D 16 a s
  | .qpk24D a => quantPack Q .D 24 a s
  | .qpk32D a => quantPack Q .D 32 a s
  | .qpk40D a => quantPack Q .D 40 a s
  | .qpk48D a => quantPack Q .D 48 a s
  | .qpk56D a => quantPack Q .D 56 a s
  | .qup8D a => quantUnpack Q .D 8 a s
  | .qup16D a => quantUnpack Q .D 16 a s
  | .qup24D a => quantUnpack Q .D 24 a s
  | .qup32D a => quantUnpack Q .D 32 a s
  | .qup40D a => quantUnpack Q .D 40 a s
  | .qup48D a => quantUnpack Q .D 48 a s
  | .qup56D a => quantUnpack Q .D 56 a s
  | .bpk71 a b => bitPack Q [(7, a), (1, b)] s
  | .bpk62 a b => bitPack Q [(6, a), (2, b)] s
  | .bpk44 a b => bitPack Q [(4, a), (4, b)] s
  | .bpk655 a b c => bitPack Q [(6, a), (5, b), (5, c)] s
  | .bpk111110 a b c => bitPack Q [(11, a), (11, b), (10, c)] s
  | .bpk10X4 a b c d => bitPack Q [(10, a), (10, b), (10, c), (10, d)] s
  | .bpk1111108 a b c d => bitPack Q [(11, a), (11, b), (10, c), (8, d)] s
  | .bup71 a b => bitUnpack Q [(7, a), (1, b)] s
  | .bup62 a b => bitUnpack Q [(6, a), (2, b)] s
  | .bup44 a b => bitUnpack Q [(4, a), (4, b)] s
  | .bup655 a b c => bitUnpack Q [(6, a), (5, b), (5, c)] s
  | .bup111110 a b c => bitUnpack Q [(11, a), (11, b), (10, c)] s
  | .bup10X4 a b c d => bitUnpack Q [(10, a), (10, b), (10, c), (10, d)] s
  | .bup1111108 a b c d => bitUnpack Q [(11, a), (11, b), (10, c), (8, d)] s
  | .construct _ _ | .adopt _ _ _ _ _ | .seekStart | .seekTo _ | .advance _ | .reverse _ | .rdcsr _
  | .dump | .fpGen | .fpGet | .fpChk | .pkU8 _ | .pkU16 _ | .pkU32 _ | .pkU64 _ | .pkI8 _
  | .pkI16 _ | .pkI32 _ | .pkI64 _ | .pkF32 _ | .pkF64 _ | .pkBlob _ _ | .upU8 | .upU16 | .upU32
  | .upU64 | .upI8 | .upI16 | .upI32 | .upI64 | .upF32 | .upF64 | .upBlob => exec i s

/-- One step of the machine in the arithmetic `Q`. -/
def stepWith (Q : QNum) (s : State) : Result :=
  match s.fetch with
  | none => s.waitForHost
  | some p =>
    match decode p with
    | .error c => refuse c
    | .ok i => execWith Q i s

end Sys2Proof.Machine
end

