-- ==== Sys2Proof/Safety.lean ====
section
/-! DEFINITION. The terms claims are stated in: which states are legal, what a safe outcome is, and the parts of
the buffer. -/

namespace Sys2Proof.Machine

/-- The registers hold legal values: `FPW` in `{0,1,2,4,8}` and `LEN + FPW <= MEM_BYTES`
(10_state.md R21). `CURSOR` may hold any value (R23). -/
def State.legal (s : State) : Bool :=
  fpwLegal s.fpw && decide (s.backing ≤ Config.memBytes)

/-- The memory is in canonical form and no cell lies at or above `MEM_BYTES` (10_state.md R24). -/
def State.memLegal (s : State) : Bool :=
  s.mem.wf && s.mem.all fun c => decide (c.1 < Config.memBytes)

/-- A well-formed state. -/
def State.wf (s : State) : Bool := s.legal && s.memLegal

/-- The cursor invariant `FPW <= CURSOR <= BACKING` (10_state.md R23). -/
def State.cursorOk (s : State) : Bool :=
  decide (s.fpw.toNat ≤ s.cursor.toNat) && decide (s.cursor.toNat ≤ s.backing)

/-- The payload bytes `[FPW, BACKING)` (20_memory.md R61). -/
def State.payload (s : State) : List Byte := s.mem.readBytes s.fpw.toNat s.len.toNat

/-- The prefix bytes `[0, FPW)` (20_memory.md R61). -/
def State.fpBytes (s : State) : List Byte := s.mem.readBytes 0 s.fpw.toNat

/-- The byte image `MEM[0 .. BACKING-1]`, the wire format (20_memory.md R61). -/
def State.image (s : State) : List Byte := s.mem.readBytes 0 s.backing

/-- The outcome is no fault (60_exceptions.md R260). -/
def NoFault (o : Result) : Prop := ∀ f, o ≠ .fault f

/-- The command completes in this state (00_scope.md R15). -/
def Completes (i : Instr) (s : State) : Prop := ∃ t, exec i s = .next t

/-- The run of the command list has ended (10_state.md R26). -/
def State.ended (s : State) : Bool := decide (s.commands.length ≤ s.pc)

/-! ### Which commands do what -/

/-- The pack commands: they encode operands into `MEM` at the cursor (00_scope.md R19). -/
def isPack : Instr → Bool
  | .pkU8 _ | .pkU16 _ | .pkU32 _ | .pkU64 _ | .pkI8 _ | .pkI16 _ | .pkI32 _ | .pkI64 _ => true
  | .pkF32 _ | .pkF64 _ | .pkBlob _ _ => true
  | .qpk8S _ | .qpk16S _ | .qpk24S _ | .qpk32S _ => true
  | .qpk8D _ | .qpk16D _ | .qpk24D _ | .qpk32D _ | .qpk40D _ | .qpk48D _ | .qpk56D _ => true
  | .bpk71 _ _ | .bpk62 _ _ | .bpk44 _ _ | .bpk655 _ _ _ | .bpk111110 _ _ _ => true
  | .bpk10X4 _ _ _ _ | .bpk1111108 _ _ _ _ => true
  | _ => false

/-- The unpack commands: they decode bytes of `MEM` at the cursor into a response (00_scope.md R19). -/
def isUnpack : Instr → Bool
  | .upU8 | .upU16 | .upU32 | .upU64 | .upI8 | .upI16 | .upI32 | .upI64 => true
  | .upF32 | .upF64 | .upBlob => true
  | .qup8S _ | .qup16S _ | .qup24S _ | .qup32S _ => true
  | .qup8D _ | .qup16D _ | .qup24D _ | .qup32D _ | .qup40D _ | .qup48D _ | .qup56D _ => true
  | .bup71 _ _ | .bup62 _ _ | .bup44 _ _ | .bup655 _ _ _ | .bup111110 _ _ _ => true
  | .bup10X4 _ _ _ _ | .bup1111108 _ _ _ _ => true
  | _ => false

/-- The commands that only set the cursor (40_buffer_cursor.md R112 to R115). -/
def isCursor : Instr → Bool
  | .seekStart | .seekTo _ | .advance _ | .reverse _ => true
  | _ => false

/-- The commands that make a new buffer. -/
def isBuild : Instr → Bool
  | .construct _ _ | .adopt _ _ _ _ _ => true
  | _ => false

/-- The unchecked cursor moves (40_buffer_cursor.md R114, R115). -/
def isUnchecked : Instr → Bool
  | .advance _ | .reverse _ => true
  | _ => false

/-- The bytes a pack or unpack moves when it passes its bounds check (20_memory.md R59). UP_BLOB's
number depends on the bytes it reads and has none here. -/
def accessBytes : Instr → Option Nat
  | .pkU8 _ | .pkI8 _ | .upU8 | .upI8 => some 1
  | .pkU16 _ | .pkI16 _ | .upU16 | .upI16 => some 2
  | .pkU32 _ | .pkI32 _ | .pkF32 _ | .upU32 | .upI32 | .upF32 => some 4
  | .pkU64 _ | .pkI64 _ | .pkF64 _ | .upU64 | .upI64 | .upF64 => some 8
  | .pkBlob op0 _ => some (2 + op0.toNat)
  | .qpk8S _ | .qup8S _ | .qpk8D _ | .qup8D _ => some 1
  | .qpk16S _ | .qup16S _ | .qpk16D _ | .qup16D _ => some 2
  | .qpk24S _ | .qup24S _ | .qpk24D _ | .qup24D _ => some 3
  | .qpk32S _ | .qup32S _ | .qpk32D _ | .qup32D _ => some 4
  | .qpk40D _ | .qup40D _ => some 5
  | .qpk48D _ | .qup48D _ => some 6
  | .qpk56D _ | .qup56D _ => some 7
  | .bpk71 _ _ | .bpk62 _ _ | .bpk44 _ _ | .bup71 _ _ | .bup62 _ _ | .bup44 _ _ => some 1
  | .bpk655 _ _ _ | .bup655 _ _ _ => some 2
  | .bpk111110 _ _ _ | .bup111110 _ _ _ => some 4
  | .bpk10X4 _ _ _ _ | .bup10X4 _ _ _ _ | .bpk1111108 _ _ _ _ | .bup1111108 _ _ _ _ => some 5
  | .construct _ _ | .adopt _ _ _ _ _ | .seekStart | .seekTo _ | .advance _ | .reverse _ => none
  | .rdcsr _ | .dump | .fpGen | .fpGet | .fpChk | .upBlob => none

/-- How many result words a command's response has (30_encoding.md R82). -/
def resultWords : Instr → Nat
  | .fpGet | .fpChk | .rdcsr _ | .dump | .upBlob => 1
  | .upU8 | .upU16 | .upU32 | .upU64 | .upI8 | .upI16 | .upI32 | .upI64 | .upF32 | .upF64 => 1
  | .qup8S _ | .qup16S _ | .qup24S _ | .qup32S _ => 1
  | .qup8D _ | .qup16D _ | .qup24D _ | .qup32D _ | .qup40D _ | .qup48D _ | .qup56D _ => 1
  | .bup71 _ _ | .bup62 _ _ | .bup44 _ _ => 2
  | .bup655 _ _ _ | .bup111110 _ _ _ => 3
  | .bup10X4 _ _ _ _ | .bup1111108 _ _ _ _ => 4
  | _ => 0

/-! ### Effects, as relations between the state before and the state after -/

/-- The `n` bytes of `v`, byte `i` being `v[8i+7:8i]` (00_scope.md R12), written without recursion. -/
def specLE (n v : Nat) : List Byte := (List.range n).map fun i => BitVec.ofNat 8 (v >>> (8 * i))

/-- The `n` bytes of `v`, byte `i` being `v[8(n-1-i)+7:8(n-1-i)]` (00_scope.md R12), written without
recursion. -/
def specBE (n v : Nat) : List Byte :=
  (List.range n).map fun i => BitVec.ofNat 8 (v >>> (8 * (n - 1 - i)))

/-- One response is sent, `pc` goes up by 1, the host's list stays (10_state.md R26, 30_encoding.md
R80). -/
def Answers (s t : State) (r : Response) : Prop :=
  t.pc = s.pc + 1 ∧ t.responses = s.responses ++ [r] ∧ t.commands = s.commands

/-- `LEN` and `FPW` stay. -/
def SameBuffer (s t : State) : Prop := t.len = s.len ∧ t.fpw = s.fpw

/-- The bytes from address `a` on become `bs`; every other byte of memory reads as before. -/
def Stores (s t : State) (a : Nat) (bs : List Byte) : Prop :=
  ∀ x, t.mem.read x = if a ≤ x ∧ x < a + bs.length then bs.getD (x - a) 0 else s.mem.read x

/-- The command completes by storing `bs` at the cursor and moving the cursor past them, with the
empty response and `k` draws; nothing else changes (20_memory.md R57). -/
def PackEffect (i : Instr) (s : State) (bs : List Byte) (k : Nat) : Prop :=
  ∃ t, exec i s = .next t ∧ Answers s t .done ∧ SameBuffer s t ∧ t.draws = s.draws + k ∧
    t.cursor.toNat = s.cursor.toNat + bs.length ∧ Stores s t s.cursor.toNat bs

/-- The command completes by answering `ws` and moving the cursor by `n`, with `k` draws; nothing else
changes, no byte of memory among it (20_memory.md R58). -/
def UnpackEffect (i : Instr) (s : State) (n : Nat) (ws : List Op) (k : Nat) : Prop :=
  ∃ t, exec i s = .next t ∧ Answers s t (.words ws) ∧ SameBuffer s t ∧ t.draws = s.draws + k ∧
    t.cursor.toNat = s.cursor.toNat + n ∧ t.mem = s.mem

/-- The command completes with the empty response by setting `CURSOR` to `c`; nothing else changes. -/
def CursorEffect (i : Instr) (s : State) (c : Nat) : Prop :=
  ∃ t, exec i s = .next t ∧ Answers s t .done ∧ SameBuffer s t ∧ t.draws = s.draws ∧
    t.cursor.toNat = c ∧ t.mem = s.mem

/-- The command completes with the empty response by storing `bs` from address `a` on; nothing else
changes, `CURSOR` among it. -/
def StoreEffect (i : Instr) (s : State) (a : Nat) (bs : List Byte) : Prop :=
  ∃ t, exec i s = .next t ∧ Answers s t .done ∧ SameBuffer s t ∧ t.draws = s.draws ∧
    t.cursor = s.cursor ∧ Stores s t a bs

/-- The command completes with the empty response and leaves a buffer of `l` payload bytes and a
fingerprint of `f` bytes, `CURSOR` at `f`, the bytes `bs` from address 0 on, every other byte as
before, and `k` draws more (40_buffer_cursor.md R110, R111). -/
def BuildEffect (i : Instr) (s : State) (l f : Nat) (bs : List Byte) (k : Nat) : Prop :=
  ∃ t, exec i s = .next t ∧ Answers s t .done ∧ t.len.toNat = l ∧ t.fpw.toNat = f ∧
    t.cursor.toNat = f ∧ t.draws = s.draws + k ∧ Stores s t 0 bs

/-- The two states differ at most in bytes of `MEM` at `BACKING` and above (10_state.md R24). -/
def Agree (s t : State) : Prop :=
  s.cursor = t.cursor ∧ s.len = t.len ∧ s.fpw = t.fpw ∧ s.pc = t.pc ∧ s.commands = t.commands ∧
    s.responses = t.responses ∧ s.draws = t.draws ∧ ∀ a, a < s.backing → s.mem.read a = t.mem.read a

/-- The code a field is packed with and the draws it takes: the rules' own code and none, or any `n`-bit
number and one (43_quantization.md R174). -/
def FieldCode (n : Nat) (c : Option Nat) (q k : Nat) : Prop :=
  match c with
  | some c => q = c ∧ q < 2 ^ n ∧ k = 0
  | none => q < 2 ^ n ∧ k = 1

/-- The word a field is answered with and the draws it takes: the pattern of the rules' own value and
none; for NaN some NaN pattern and one (log 5); for an invalid range any pattern of the format and one
(43_quantization.md R175). -/
def FieldAnswer (fmt : Fmt) (v : Option Fl) (w : Op) (k : Nat) : Prop :=
  match v with
  | some .nan => Fl.ofBits fmt w = .nan ∧ w.toNat < 2 ^ fmt.width ∧ k = 1
  | some v => w = v.toBits fmt 0 ∧ k = 0
  | none => w.toNat < 2 ^ fmt.width ∧ k = 1

/-- The codes of a word's fields in layout order and the draws they take together (44_bitpack.md
R212). -/
def FieldCodes : List (Nat × QArg) → List Nat → Nat → Prop
  | [], qs, k => qs = [] ∧ k = 0
  | (w, a) :: rest, qs, k =>
    ∃ q qs' k1 k2, qs = q :: qs' ∧ k = k1 + k2 ∧ FieldCode w (codeOf .S w a) q k1 ∧
      FieldCodes rest qs' k2

/-- The answers of a word's fields, given each field's width, code and range, and the draws they take
together (44_bitpack.md R212). -/
def FieldAnswers : List (Nat × Nat × QRange) → List Op → Nat → Prop
  | [], ws, k => ws = [] ∧ k = 0
  | (w, q, r) :: rest, ws, k =>
    ∃ x ws' k1 k2, ws = x :: ws' ∧ k = k1 + k2 ∧ FieldAnswer .S (valueOf .S w q r) x k1 ∧
      FieldAnswers rest ws' k2

/-- The `n` bytes of memory from address `a` on as one number, the first byte on top (20_memory.md
R50, big-endian). -/
def beWord (m : Memory) (a : Nat) : Nat → Nat
  | 0 => 0
  | n + 1 => beWord m a n * 256 + (m.read (a + n)).toNat

/-- The `n` bytes of memory from address `a` on as one number, the first byte at the bottom
(20_memory.md R50, little-endian). -/
def leWord (m : Memory) (a : Nat) : Nat → Nat
  | 0 => 0
  | n + 1 => leWord m a n + 256 ^ n * (m.read (a + n)).toNat

/-- A pack command's rule whole: its packet, its effect where `bs` fit, and no effect but the empty
response where they do not (20_memory.md R57, 60_exceptions.md R261). -/
def PackRule (i : Instr) (p : Packet) (bs : List Byte) (s : State) : Prop :=
  encode i = p ∧ (s.fits bs.length = true → PackEffect i s bs 0) ∧
    (s.fits bs.length = false → exec i s = .next (s.answer .done))

/-- A one-word unpack command's rule whole: its packet, its effect where `n` bytes fit, and the zero
word with nothing else changed where they do not (20_memory.md R58, 60_exceptions.md R262). -/
def UnpackRule (i : Instr) (p : Packet) (n : Nat) (w : Op) (s : State) : Prop :=
  encode i = p ∧ (s.fits n = true → UnpackEffect i s n [w] 0) ∧
    (s.fits n = false → exec i s = .next (s.answer (.words [0])))

/-- A scalar quantization pack's rule whole, for a code of `n` bytes: its packet, its effect where the
bytes fit (the code stored least significant byte first), and no effect but the empty response where
they do not (43_quantization.md R176). -/
def QuantPackRule (i : Instr) (cw : BitVec 32) (fmt : Fmt) (n : Nat) (a : QArg) (s : State) : Prop :=
  encode i = ⟨cw, [a.value, a.min, a.max], []⟩ ∧
    (s.fits n = true →
      ∃ q k, FieldCode (8 * n) (codeOf fmt (8 * n) a) q k ∧ PackEffect i s (specLE n q) k) ∧
    (s.fits n = false → exec i s = .next (s.answer .done))

/-- A scalar quantization unpack's rule whole, for a code of `n` bytes (43_quantization.md R177). -/
def QuantUnpackRule (i : Instr) (cw : BitVec 32) (fmt : Fmt) (n : Nat) (r : QRange)
    (s : State) : Prop :=
  encode i = ⟨cw, [r.min, r.max], []⟩ ∧
    (s.fits n = true →
      ∃ w k, FieldAnswer fmt (valueOf fmt (8 * n) (leWord s.mem s.cursor.toNat n) r) w k ∧
        UnpackEffect i s n [w] k) ∧
    (s.fits n = false → exec i s = .next (s.answer (.words [0])))

/-- A bit-pack command's rule whole, for a word of `n` bytes: `fields` are the widths and operands in
layout order, `word` makes the shared word from the codes, which is stored most significant byte
first (44_bitpack.md R213). -/
def BitPackRule (i : Instr) (cw : BitVec 32) (n : Nat) (fields : List (Nat × QArg))
    (word : (Nat → Nat) → Nat) (s : State) : Prop :=
  encode i = ⟨cw, fields.flatMap fun f => [f.2.value, f.2.min, f.2.max], []⟩ ∧
    (s.fits n = true →
      ∃ qs k, FieldCodes fields qs k ∧ PackEffect i s (specBE n (word fun j => qs.getD j 0)) k) ∧
    (s.fits n = false → exec i s = .next (s.answer .done))

/-- A bit-unpack command's rule whole, for a word of `n` bytes: `fields w` are the widths, the codes
cut out of the word `w`, and the ranges, in layout order (44_bitpack.md R213). -/
def BitUnpackRule (i : Instr) (cw : BitVec 32) (n : Nat)
    (fields : Nat → List (Nat × Nat × QRange)) (s : State) : Prop :=
  encode i = ⟨cw, (fields 0).flatMap fun f => [f.2.2.min, f.2.2.max], []⟩ ∧
    (s.fits n = true →
      ∃ ws k, FieldAnswers (fields (beWord s.mem s.cursor.toNat n)) ws k ∧ UnpackEffect i s n ws k) ∧
    (s.fits n = false →
      exec i s = .next (s.answer (.words (List.replicate (fields 0).length 0))))

/-- Packing, going back over the bytes packed and unpacking answers `ws`, with the cursor after the
field (42_primitive.md R164, 43_quantization.md R202). -/
def RoundTrips (pk up : Instr) (n : Nat) (ws : List Op) (s : State) : Prop :=
  ∃ t, execAll [pk, .reverse (BitVec.ofNat 64 n), up] s = .next t ∧ t.pc = s.pc + 3 ∧
    t.responses = s.responses ++ [.done, .done, .words ws] ∧ SameBuffer s t ∧
    t.cursor.toNat = s.cursor.toNat + n

/-- A scalar quantization round trip: the answer is the value of the code the pack stored
(43_quantization.md R202). -/
def QuantRoundTrips (pk up : Instr) (fmt : Fmt) (n : Nat) (v : Op) (r : QRange) (s : State) : Prop :=
  ∃ q k w l, FieldCode (8 * n) (codeOf fmt (8 * n) ⟨v, r.min, r.max⟩) q k ∧
    FieldAnswer fmt (valueOf fmt (8 * n) q r) w l ∧ RoundTrips pk up n [w] s

/-- A bit-pack round trip: every answer is the value of the code the pack stored for its field
(44_bitpack.md R228). `fields` are the widths, values and ranges in layout order. -/
def BitRoundTrips (pk up : Instr) (n : Nat) (fields : List (Nat × Op × QRange)) (s : State) : Prop :=
  ∃ qs k ws l, FieldCodes (fields.map fun f => (f.1, ⟨f.2.1, f.2.2.min, f.2.2.max⟩)) qs k ∧
    FieldAnswers ((fields.zip qs).map fun f => (f.1.1, f.2, f.1.2.2)) ws l ∧
    RoundTrips pk up n ws s

/-! ### Rounding, said over the real numbers (00_scope.md R16) -/

/-- The number a finite value stands for. -/
def signedValue (neg : Bool) (m : Nat) (e : Int) : ℚ := (if neg then -1 else 1) * (m * 2 ^ e)

/-- `m * 2^e` is a number of the format, in its one normalised form: all digits used, or the smallest
exponent (93_implementation_defined.md G2, G5). -/
def InFormat (fmt : Fmt) (m : Nat) (e : Int) : Prop :=
  m < 2 ^ fmt.prec ∧ fmt.eMin ≤ e ∧ e ≤ fmt.eMax ∧ (2 ^ (fmt.prec - 1) ≤ m ∨ e = fmt.eMin)

/-- From here on a number rounds to infinity: half a last place above the largest finite number. -/
def overflowAt (fmt : Fmt) : ℚ := (2 ^ fmt.prec - 1 / 2) * 2 ^ fmt.eMax

/-- `v` is the real number `x`, with `0 ≤ x`, negated when `neg`, rounded once to the format: the nearest
number of it, of two nearest ones that with the even last digit, and infinity from `overflowAt` on. The
sign is kept, also by a zero (00_scope.md R16). What IEEE 754 says is PRESUMED (log 9). -/
def RoundsTo (fmt : Fmt) (neg : Bool) (x : ℝ) (v : Fl) : Prop :=
  ((overflowAt fmt : ℝ) ≤ x ∧ v = .inf neg) ∨
    (x < (overflowAt fmt : ℝ) ∧ ∃ m e, v = .fin neg m e ∧ InFormat fmt m e ∧
      ∀ m' e', InFormat fmt m' e' →
        |x - m * 2 ^ e| ≤ |x - m' * 2 ^ e'| ∧
        (|x - m * 2 ^ e| = |x - m' * 2 ^ e'| → (m', e') ≠ (m, e) → m % 2 = 0))

/-! ### The opcode map, said by ranges (30_encoding.md R86, R88) -/

/-- The opcodes of the map. -/
def opcodeLegal (b : BitVec 8) : Bool :=
  (0x01 ≤ b && b ≤ 0x08) || (0x10 ≤ b && b ≤ 0x12) || (0x20 ≤ b && b ≤ 0x2A)
    || (0x30 ≤ b && b ≤ 0x3A) || (0x41 ≤ b && b ≤ 0x44) || (0x51 ≤ b && b ≤ 0x54)
    || (0x61 ≤ b && b ≤ 0x67) || (0x71 ≤ b && b ≤ 0x77) || (0x80 ≤ b && b ≤ 0x86)
    || (0x90 ≤ b && b ≤ 0x96)

/-- A must-be-zero bit of `MOD` is 1 (30_encoding.md R81, R87): `MOD[7:4]` in CONSTRUCT, `MOD[7:6]` in
ADOPT, `MOD[7:2]` in RDCSR, any bit elsewhere. -/
def modReserved (opc mod : BitVec 8) : Bool :=
  if opc = 0x01 then decide (16 ≤ mod.toNat)
  else if opc = 0x02 then decide (64 ≤ mod.toNat)
  else if opc = 0x07 then decide (4 ≤ mod.toNat)
  else decide (mod ≠ 0)

/-- How many operand words a packet with this opcode has (30_encoding.md R82). -/
def operandCount (b : BitVec 8) : Nat :=
  if b = 0x03 || (0x07 ≤ b && b ≤ 0x12) || (0x30 ≤ b && b ≤ 0x3A) then 0
  else if b ≤ 0x2A then 1
  else if (0x51 ≤ b && b ≤ 0x54) || (0x71 ≤ b && b ≤ 0x77) then 2
  else if b ≤ 0x67 then 3
  else if b ≤ 0x82 then 6
  else if b ≤ 0x84 then 9
  else if b ≤ 0x86 then 12
  else if b ≤ 0x92 then 4
  else if b ≤ 0x94 then 6
  else 8

/-- The format has `DATA` (30_encoding.md R82): ADOPT and PK_BLOB. -/
def takesData (b : BitVec 8) : Bool := b == 0x02 || b == 0x2A

/-- The cause a packet is refused with, or nothing: the checks of 60_exceptions.md R267, steps 1 to 7,
in their order, over the packet's own bits and `MEM_BYTES`. -/
def checkedCause (p : Packet) : Option Cause :=
  let f := p.mod.toNat % 16
  let n := (p.op.getD 0 0).toNat
  let kept := p.mod.getLsbD 4 || p.mod.getLsbD 5
  if opcodeLegal p.opc = false then some .illegalOpcode
  else if p.zero ≠ 0 ∨ modReserved p.opc p.mod = true then some .reservedBits
  else if p.op.length ≠ operandCount p.opc ∨ (takesData p.opc = false ∧ p.data ≠ []) then
    some .badPacket
  else if (p.opc = 0x01 ∨ p.opc = 0x02) ∧ f ∉ [0, 1, 2, 4, 8] then some .illegalFpw
  else if p.opc = 0x2A ∧ 65535 < n then some .badLength
  else if takesData p.opc = true ∧ p.data.length ≠ n then some .badPacket
  else if p.opc = 0x01 ∧ Config.memBytes < n + f then some .tooLarge
  else if p.opc = 0x02 ∧ Config.memBytes < (if kept then n else n + f) then some .tooLarge
  else if p.opc = 0x02 ∧ kept = true ∧ n < f then some .badLength
  else none

/-- The commands with a free value among their effects: quantized fields, and ADOPT with a shift
(00_scope.md R17, 40_buffer_cursor.md R111). -/
def mayDraw : Instr → Bool
  | .adopt _ cf sh _ _ => !cf && sh
  | .qpk8S _ | .qpk16S _ | .qpk24S _ | .qpk32S _ => true
  | .qpk8D _ | .qpk16D _ | .qpk24D _ | .qpk32D _ | .qpk40D _ | .qpk48D _ | .qpk56D _ => true
  | .qup8S _ | .qup16S _ | .qup24S _ | .qup32S _ => true
  | .qup8D _ | .qup16D _ | .qup24D _ | .qup32D _ | .qup40D _ | .qup48D _ | .qup56D _ => true
  | .bpk71 _ _ | .bpk62 _ _ | .bpk44 _ _ | .bpk655 _ _ _ | .bpk111110 _ _ _ => true
  | .bpk10X4 _ _ _ _ | .bpk1111108 _ _ _ _ => true
  | .bup71 _ _ | .bup62 _ _ | .bup44 _ _ | .bup655 _ _ _ | .bup111110 _ _ _ => true
  | .bup10X4 _ _ _ _ | .bup1111108 _ _ _ _ => true
  | _ => false

end Sys2Proof.Machine
end

