-- ==== Sys2Proof/Certificates/Slice0/Obligations.lean ====
section
/-! DEFINITION. The statements for the provers, from the numbered rules of spec/. A premise `s.wf = true` or
`s.legal = true` is the invariant of StepKeepsWellFormed and ResetIsWellFormed. -/

open Sys2Proof Sys2Proof.Machine

/-- Decoding undoes encoding, for every command and every operand (30_encoding.md R81, R82, R86, R87). -/
def Obligations.DecodeUndoesEncode : Prop :=
  ∀ i : Instr, decode (encode i) = .ok i

/-- Encoding undoes decoding, for every packet (30_encoding.md R81, R82, R86, R87, R89). -/
def Obligations.EncodeUndoesDecode : Prop :=
  ∀ (p : Packet) (i : Instr), decode p = .ok i → encode i = p

/-- The decoder's rows are the opcodes of 30_encoding.md R86, no others (R88). -/
def Obligations.OpcodesAreExactlyTheMap : Prop :=
  ∀ b : BitVec 8, (rowOf b).isSome = opcodeLegal b

/-- Packets written out from the spec, at least one of every class of opcodes, and the commands they stand for. -/
def Obligations.SpecWordsDecode : Prop :=
  decode ⟨0x01000002, [32], []⟩ = .ok (.construct 2 32) ∧
    decode ⟨0x02000022, [2], [0xAA, 0xBB]⟩ = .ok (.adopt 2 false true 2 [0xAA, 0xBB]) ∧
    decode ⟨0x07000003, [], []⟩ = .ok (.rdcsr 3) ∧
    decode ⟨0x10000000, [], []⟩ = .ok .fpGen ∧
    decode ⟨0x21000000, [0xBEEF], []⟩ = .ok (.pkU16 0xBEEF) ∧
    decode ⟨0x37000000, [], []⟩ = .ok .upI64 ∧
    decode ⟨0x41000000, [1, 2, 3], []⟩ = .ok (.qpk8S ⟨1, 2, 3⟩) ∧
    decode ⟨0x51000000, [1, 2], []⟩ = .ok (.qup8S ⟨1, 2⟩) ∧
    decode ⟨0x61000000, [1, 2, 3], []⟩ = .ok (.qpk8D ⟨1, 2, 3⟩) ∧
    decode ⟨0x71000000, [1, 2], []⟩ = .ok (.qup8D ⟨1, 2⟩) ∧
    decode ⟨0x80000000, [1, 2, 3, 4, 5, 6], []⟩ = .ok (.bpk71 ⟨1, 2, 3⟩ ⟨4, 5, 6⟩) ∧
    decode ⟨0x90000000, [1, 2, 3, 4], []⟩ = .ok (.bup71 ⟨1, 2⟩ ⟨3, 4⟩)

/-- What a step adds around `exec`: nothing. With no packet to take it waits, which is the model's choice (log 2). -/
def Obligations.StepRunsTheNextCommand : Prop :=
  ∀ s : State,
    (∀ p i, s.commands[s.pc]? = some p → decode p = .ok i → step s = exec i s) ∧
    (∀ p c, s.commands[s.pc]? = some p → decode p = .error c → step s = .refused (.packet c)) ∧
    (s.commands[s.pc]? = none → step s = .next s)

/-- Which packets are refused, with which cause, and that every other packet completes (60_exceptions.md R265, R267 steps 1 to 7). -/
def Obligations.ChecksRunInTheStatedOrder : Prop :=
  ∀ (s : State) (p : Packet), s.legal = true → s.commands[s.pc]? = some p →
    (∀ c, checkedCause p = some c → step s = .refused (.packet c)) ∧
    (checkedCause p = none → ∃ t, step s = .next t)

/-- Completion and refusal, per command (60_exceptions.md R265, 00_scope.md R15). -/
def Obligations.RefusalDependsOnThePacketAlone : Prop :=
  ∀ (i : Instr) (s : State),
    (s.legal = true → (Completes i s ↔ i.wf = true)) ∧
    (i.wf = false → ∃ c, ∀ u : State, exec i u = .refused (.packet c)) ∧
    (∀ c, exec i s = .refused c → ∀ u : State, exec i u = .refused c)

/-- The invariant of the registers and of the memory's canonical form, kept by every step (10_state.md R21, R24). The canonical form is the model's (log 6). -/
def Obligations.StepKeepsWellFormed : Prop :=
  ∀ s t : State, s.wf = true → step s = .next t → t.wf = true

/-- The reset state has both invariants (10_state.md R23, R29). -/
def Obligations.ResetIsWellFormed : Prop :=
  State.reset.wf = true ∧ State.reset.cursorOk = true

/-- The reset values the spec gives (10_state.md R29). -/
def Obligations.ResetClearsTheRegisters : Prop :=
  State.reset.len = 0 ∧ State.reset.fpw = 0 ∧ State.reset.cursor = 0 ∧ State.reset.backing = 0 ∧
    State.reset.pc = 0 ∧ ∀ n, 0 < n → State.reset.fits n = false

/-- What the rules give before any CONSTRUCT or ADOPT (70_reset_and_hazards.md R283), for any contents of `MEM`. -/
def Obligations.EmptyBufferAnswers : Prop :=
  ∀ s : State, s.len = 0 → s.fpw = 0 → s.cursor = 0 →
    (∀ i, isPack i = true → i.wf = true → exec i s = .next (s.answer .done)) ∧
    (∀ i, isUnpack i = true →
      exec i s = .next (s.answer ⟨0, List.replicate (resultWords i) 0, []⟩)) ∧
    exec .fpGen s = .next (s.answer .done) ∧
    exec .fpGet s = .next (s.answer ⟨0, [0], []⟩) ∧
    exec .fpChk s = .next (s.answer ⟨0, [1], []⟩) ∧
    exec .dump s = .next (s.answer ⟨0, [0], []⟩) ∧
    (∀ r, exec (.rdcsr r) s = .next (s.answer ⟨0, [0], []⟩)) ∧
    CursorEffect .seekStart s 0 ∧
    (∀ v, CursorEffect (.seekTo v) s 0) ∧
    (∀ v, CursorEffect (.advance v) s (v.toNat % 2 ^ 32)) ∧
    (∀ v, CursorEffect (.reverse v) s ((2 ^ 32 - v.toNat % 2 ^ 32) % 2 ^ 32))

/-- There is no trap (60_exceptions.md R260): the model's fault (log 10) needs illegal registers. -/
def Obligations.NoStepFaults : Prop :=
  ∀ s : State, s.legal = true → NoFault (step s)

/-- The response of a completed command, and `pc` (10_state.md R26, 30_encoding.md R80, R82, R84, R85). -/
def Obligations.EveryCommandAnswersOnce : Prop :=
  ∀ (i : Instr) (s t : State), exec i s = .next t →
    t.pc = s.pc + 1 ∧ t.commands = s.commands ∧
    ∃ r, t.responses = s.responses ++ [r] ∧ r.rh = 0 ∧ r.res.length = resultWords i ∧
      (i ≠ .dump → i ≠ .upBlob → r.rdata = []) ∧
      (i = .dump ∨ i = .upBlob → r.res = [BitVec.ofNat 64 r.rdata.length])

/-- The only writes there are (10_state.md R28). FP_GEN, FP_GET, FP_CHK, RDCSR and DUMP fall under the second clause with an unchanged cursor, for they are neither packs nor unpacks. -/
def Obligations.OnlyTheseWritesExist : Prop :=
  ∀ (i : Instr) (s t : State), s.wf = true → exec i s = .next t → isBuild i = false →
    (t.len = s.len ∧ t.fpw = s.fpw) ∧
    (isCursor i = false → t.cursor = s.cursor ∨
      ((isPack i = true ∨ isUnpack i = true) ∧ ∃ n, s.fits n = true ∧
        t.cursor.toNat = s.cursor.toNat + n ∧ (∀ m, accessBytes i = some m → n = m) ∧
        (i = .upBlob → n = 2 + beWord s.mem s.cursor.toNat 2))) ∧
    (isPack i = false → ∀ x, s.fpw.toNat ≤ x → t.mem.read x = s.mem.read x) ∧
    (i ≠ .fpGen → ∀ x, x < s.fpw.toNat → t.mem.read x = s.mem.read x)

/-- The cursor invariant (10_state.md R23). -/
def Obligations.CursorInvariant : Prop :=
  State.reset.cursorOk = true ∧
    (∀ (i : Instr) (s t : State), s.legal = true → exec i s = .next t →
      (isBuild i = true ∨ i = .seekStart ∨ ∃ v, i = .seekTo v) → t.cursorOk = true) ∧
    (∀ (i : Instr) (s t : State), s.legal = true → s.cursorOk = true → exec i s = .next t →
      isUnchecked i = false → t.cursorOk = true) ∧
    (∃ s t : State, s.wf = true ∧ s.cursorOk = true ∧ exec (.advance 1) s = .next t ∧
      t.cursorOk = false) ∧
    (∃ s t : State, s.wf = true ∧ s.cursorOk = true ∧ exec (.reverse 1) s = .next t ∧
      t.cursorOk = false) ∧
    (∀ (i : Instr) (s : State), s.legal = true → s.cursorOk = false → i.wf = true →
      (isPack i = true ∨ isUnpack i = true) →
      exec i s = .next (s.answer ⟨0, List.replicate (resultWords i) 0, []⟩))

/-- The bounds predicate where the cursor invariant holds (20_memory.md R56), and the addition that never wraps (R57). -/
def Obligations.FitsIsTheSourceCheck : Prop :=
  (∀ (s : State) (n : Nat), s.cursorOk = true →
      (s.fits n = true ↔ s.cursor.toNat + n ≤ s.len.toNat + s.fpw.toNat)) ∧
    (∀ (s : State) (n : Nat), s.legal = true → s.fits n = true →
      (s.cursor + BitVec.ofNat 32 n).toNat = s.cursor.toNat + n)

/-- Bytes at `BACKING` and above are not observable (10_state.md R24). -/
def Obligations.BytesAboveBackingAreInvisible : Prop :=
  ∀ s u : State, s.wf = true → u.wf = true → Agree s u →
    (∀ t, step s = .next t → ∃ v, step u = .next v ∧ Agree t v) ∧
    (∀ c, step s = .refused c → step u = .refused c)

/-- Which commands have a free value (00_scope.md R17). The counter of draws is the model's own (log 4, log 5). -/
def Obligations.OnlyOpenResultsTakeDraws : Prop :=
  ∀ (i : Instr) (s t : State), exec i s = .next t →
    s.draws ≤ t.draws ∧ (mayDraw i = false → t.draws = s.draws)

/-- capacity-exceeded and under-read (60_exceptions.md R261, R262). -/
def Obligations.AccessThatDoesNotFitChangesNothing : Prop :=
  (∀ (i : Instr) (s : State) (n : Nat), i.wf = true → accessBytes i = some n → s.fits n = false →
      exec i s = .next (s.answer ⟨0, List.replicate (resultWords i) 0, []⟩)) ∧
    (∀ s : State, s.fits 2 = false → exec .upBlob s = .next (s.answer ⟨0, [0], []⟩)) ∧
    (∀ s : State, s.legal = true → s.fits 2 = true →
      s.fits (2 + beWord s.mem s.cursor.toNat 2) = false →
      exec .upBlob s = .next (s.answer ⟨0, [0], []⟩))

/-- What a refusal does (60_exceptions.md R266): the end of a model's run, and the block's own going on, with the header of each cause written out from the codes of R265. -/
def Obligations.ServeAnswersARefusal : Prop :=
  ∀ (s : State) (p : Packet) (c : Cause), s.commands[s.pc]? = some p →
    (decode p = .error c ∨ ∃ i, decode p = .ok i ∧ exec i s = .refused (.packet c)) →
    ∃ rh, (c, rh) ∈ [(Cause.illegalOpcode, (0x80000001 : BitVec 32)), (.reservedBits, 0x80000002),
      (.badPacket, 0x80000003), (.illegalFpw, 0x80000004), (.tooLarge, 0x80000005),
      (.badLength, 0x80000006)] ∧
    step s = .refused (.packet c) ∧
    ∃ t, serve s = .next t ∧ t.cursor = s.cursor ∧ t.len = s.len ∧ t.fpw = s.fpw ∧
      t.mem = s.mem ∧ t.pc = s.pc ∧ t.draws = s.draws ∧
      t.responses = s.responses ++ [⟨rh, [], []⟩] ∧
      t.commands[t.pc]? = s.commands[s.pc + 1]?

/-- FP_GEN (41_fingerprint.md R132) with the fingerprint value of R131. -/
def Obligations.FpGenWritesTheFingerprint : Prop :=
  ∀ s : State, s.wf = true →
    encode .fpGen = ⟨0x10000000, [], []⟩ ∧
    StoreEffect .fpGen s 0
      (specBE s.fpw.toNat
        ((Config.fpMix s.fpw.toNat (s.mem.readBytes s.fpw.toNat s.len.toNat)).toNat
          % 2 ^ (8 * s.fpw.toNat)))

/-- FP_GET (41_fingerprint.md R133). -/
def Obligations.FpGetAnswersTheStoredPrefix : Prop :=
  ∀ s : State, s.legal = true →
    encode .fpGet = ⟨0x11000000, [], []⟩ ∧
    exec .fpGet s =
      .next (s.answer ⟨0, [BitVec.ofNat 64 (beWord s.mem 0 s.fpw.toNat)], []⟩)

/-- FP_CHK (41_fingerprint.md R134). -/
def Obligations.FpChkComparesStoredWithRecomputed : Prop :=
  ∀ s : State, s.legal = true →
    encode .fpChk = ⟨0x12000000, [], []⟩ ∧
    (s.fpw = 0 → exec .fpChk s = .next (s.answer ⟨0, [1], []⟩)) ∧
    (s.fpw ≠ 0 →
      exec .fpChk s = .next (s.answer ⟨0, [if beWord s.mem 0 s.fpw.toNat =
        (Config.fpMix s.fpw.toNat (s.mem.readBytes s.fpw.toNat s.len.toNat)).toNat
          % 2 ^ (8 * s.fpw.toNat) then 1 else 0], []⟩))

/-- The idempotence of the fingerprint (41_fingerprint.md R135 (a), (b), (c)). -/
def Obligations.FingerprintValidAfterGeneration : Prop :=
  ∀ s : State, s.wf = true →
    (∀ is : List Instr, (∀ i ∈ is, isPack i = false ∧ isBuild i = false) →
      ∃ t, execAll (.fpGen :: is) s = .next t ∧
        exec .fpChk t = .next (t.answer ⟨0, [1], []⟩)) ∧
    (∀ (is : List Instr) (t : State), (∀ i ∈ is, isBuild i = false ∧ i ≠ .fpGen) →
      execAll (.fpGen :: is) s = .next t → t.payload = s.payload →
      exec .fpChk t = .next (t.answer ⟨0, [1], []⟩)) ∧
    (s.fpw = 0 → exec .fpChk s = .next (s.answer ⟨0, [1], []⟩)) ∧
    (∀ u : State, u.fpw = s.fpw → u.len = s.len → u.payload = s.payload →
      fingerprint u.fpw.toNat u.payload = fingerprint s.fpw.toNat s.payload)

/-- CONSTRUCT (40_buffer_cursor.md R110). -/
def Obligations.ConstructMakesAZeroedBuffer : Prop :=
  ∀ (f : BitVec 4) (c : Op) (s : State), s.wf = true →
    encode (.construct f c) = ⟨0x01000000 ||| f.setWidth 32, [c], []⟩ ∧
    (f.toNat ∉ [0, 1, 2, 4, 8] → exec (.construct f c) s = .refused (.packet .illegalFpw)) ∧
    (f.toNat ∈ [0, 1, 2, 4, 8] → Config.memBytes < c.toNat + f.toNat →
      exec (.construct f c) s = .refused (.packet .tooLarge)) ∧
    (f.toNat ∈ [0, 1, 2, 4, 8] → c.toNat + f.toNat ≤ Config.memBytes →
      BuildEffect (.construct f c) s c.toNat f.toNat (List.replicate (c.toNat + f.toNat) 0) 0)

/-- ADOPT (40_buffer_cursor.md R111). The counter of draws is the model's own field (log 4). -/
def Obligations.AdoptTakesTheBytes : Prop :=
  ∀ (f : BitVec 4) (cf sh : Bool) (n : Op) (data : List Byte) (s : State), s.wf = true →
    encode (.adopt f cf sh n data) =
      ⟨0x02000000 ||| (BitVec.ofBool sh).setWidth 32 <<< 5 ||| (BitVec.ofBool cf).setWidth 32 <<< 4
        ||| f.setWidth 32, [n], data⟩ ∧
    (f.toNat ∉ [0, 1, 2, 4, 8] →
      exec (.adopt f cf sh n data) s = .refused (.packet .illegalFpw)) ∧
    (f.toNat ∈ [0, 1, 2, 4, 8] → data.length ≠ n.toNat →
      exec (.adopt f cf sh n data) s = .refused (.packet .badPacket)) ∧
    (f.toNat ∈ [0, 1, 2, 4, 8] → data.length = n.toNat →
      (cf = true ∨ sh = true →
        (Config.memBytes < n.toNat →
          exec (.adopt f cf sh n data) s = .refused (.packet .tooLarge)) ∧
        (n.toNat < f.toNat →
          exec (.adopt f cf sh n data) s = .refused (.packet .badLength)) ∧
        (f.toNat ≤ n.toNat → n.toNat ≤ Config.memBytes →
          (cf = true →
            BuildEffect (.adopt f cf sh n data) s (n.toNat - f.toNat) f.toNat data 0) ∧
          (cf = false → ∃ pre : List Byte, pre.length = f.toNat ∧
            BuildEffect (.adopt f cf sh n data) s (n.toNat - f.toNat) f.toNat
              (pre ++ data.take (n.toNat - f.toNat)) f.toNat))) ∧
      (cf = false → sh = false →
        (Config.memBytes < n.toNat + f.toNat →
          exec (.adopt f cf sh n data) s = .refused (.packet .tooLarge)) ∧
        (n.toNat + f.toNat ≤ Config.memBytes →
          BuildEffect (.adopt f cf sh n data) s n.toNat f.toNat
            (List.replicate f.toNat 0 ++ data) 0)))

/-- SEEK_START and SEEK_TO (40_buffer_cursor.md R112, R113). -/
def Obligations.SeekCommandsSetTheCursor : Prop :=
  ∀ (v : Op) (s : State), s.legal = true →
    encode .seekStart = ⟨0x03000000, [], []⟩ ∧ CursorEffect .seekStart s s.fpw.toNat ∧
    encode (.seekTo v) = ⟨0x04000000, [v], []⟩ ∧
    (v.toInt < 0 ∨ s.len = 0 → CursorEffect (.seekTo v) s s.fpw.toNat) ∧
    (0 ≤ v.toInt → v.toInt < s.len.toNat →
      CursorEffect (.seekTo v) s (s.fpw.toNat + v.toInt.toNat)) ∧
    (s.len ≠ 0 → (s.len.toNat : Int) ≤ v.toInt → CursorEffect (.seekTo v) s (s.backing - 1))

/-- ADVANCE and REVERSE (40_buffer_cursor.md R114, R115). -/
def Obligations.AdvanceAndReverseWrap : Prop :=
  ∀ (v : Op) (s : State),
    encode (.advance v) = ⟨0x05000000, [v], []⟩ ∧ encode (.reverse v) = ⟨0x06000000, [v], []⟩ ∧
    CursorEffect (.advance v) s ((s.cursor.toNat + v.toNat % 2 ^ 32) % 2 ^ 32) ∧
    CursorEffect (.reverse v) s ((s.cursor.toNat + 2 ^ 32 - v.toNat % 2 ^ 32) % 2 ^ 32)

/-- RDCSR (40_buffer_cursor.md R116). -/
def Obligations.RdcsrReadsARegister : Prop :=
  (∀ s : State,
      exec (.rdcsr 0) s = .next (s.answer ⟨0, [BitVec.ofNat 64 s.cursor.toNat], []⟩) ∧
      exec (.rdcsr 1) s = .next (s.answer ⟨0, [BitVec.ofNat 64 s.len.toNat], []⟩) ∧
      exec (.rdcsr 2) s = .next (s.answer ⟨0, [BitVec.ofNat 64 s.fpw.toNat], []⟩) ∧
      exec (.rdcsr 3) s =
        .next (s.answer ⟨0, [BitVec.ofNat 64 (s.len.toNat + s.fpw.toNat)], []⟩)) ∧
    (∀ r : BitVec 2, encode (.rdcsr r) = ⟨0x07000000 ||| r.setWidth 32, [], []⟩) ∧
    (∀ m : BitVec 8, 4 ≤ m.toNat →
      decode ⟨0x07000000 ||| m.setWidth 32, [], []⟩ = .error .reservedBits)

/-- DUMP (40_buffer_cursor.md R117). -/
def Obligations.DumpAnswersTheWireImage : Prop :=
  ∀ s : State, s.legal = true →
    encode .dump = ⟨0x08000000, [], []⟩ ∧
    exec .dump s = .next (s.answer ⟨0, [BitVec.ofNat 64 (s.len.toNat + s.fpw.toNat)],
      (List.range (s.len.toNat + s.fpw.toNat)).map s.mem.read⟩)

/-- The byte image is the wire format: the sender's DUMP and the receiver's ADOPT (20_memory.md R61, 70_reset_and_hazards.md R284). -/
def Obligations.DumpedImageIsAdopted : Prop :=
  ∀ s u : State, s.legal = true → u.wf = true →
    ∃ d r n t, exec .dump s = .next d ∧ d.responses = s.responses ++ [r] ∧ r.res = [n] ∧
      exec (.adopt s.fpw true false n r.rdata) u = .next t ∧
      t.len = s.len ∧ t.fpw = s.fpw ∧ t.cursor.toNat = s.fpw.toNat ∧ t.image = s.image ∧
      t.fpBytes = s.fpBytes ∧ t.payload = s.payload

/-- The primitive packs (42_primitive.md R141 to R150), their bytes written out one by one. -/
def Obligations.PrimitivePacksStoreBigEndian : Prop :=
  ∀ (v : Op) (s : State), s.wf = true →
    PackRule (.pkU8 v) ⟨0x20000000, [v], []⟩
      [v.extractLsb' 0 8] s ∧
    PackRule (.pkU16 v) ⟨0x21000000, [v], []⟩
      [v.extractLsb' 8 8, v.extractLsb' 0 8] s ∧
    PackRule (.pkU32 v) ⟨0x22000000, [v], []⟩
      [v.extractLsb' 24 8, v.extractLsb' 16 8, v.extractLsb' 8 8, v.extractLsb' 0 8] s ∧
    PackRule (.pkU64 v) ⟨0x23000000, [v], []⟩
      [v.extractLsb' 56 8, v.extractLsb' 48 8, v.extractLsb' 40 8, v.extractLsb' 32 8,
        v.extractLsb' 24 8, v.extractLsb' 16 8, v.extractLsb' 8 8, v.extractLsb' 0 8] s ∧
    PackRule (.pkI8 v) ⟨0x24000000, [v], []⟩
      [v.extractLsb' 0 8] s ∧
    PackRule (.pkI16 v) ⟨0x25000000, [v], []⟩
      [v.extractLsb' 8 8, v.extractLsb' 0 8] s ∧
    PackRule (.pkI32 v) ⟨0x26000000, [v], []⟩
      [v.extractLsb' 24 8, v.extractLsb' 16 8, v.extractLsb' 8 8, v.extractLsb' 0 8] s ∧
    PackRule (.pkI64 v) ⟨0x27000000, [v], []⟩
      [v.extractLsb' 56 8, v.extractLsb' 48 8, v.extractLsb' 40 8, v.extractLsb' 32 8,
        v.extractLsb' 24 8, v.extractLsb' 16 8, v.extractLsb' 8 8, v.extractLsb' 0 8] s ∧
    PackRule (.pkF32 v) ⟨0x28000000, [v], []⟩
      [v.extractLsb' 24 8, v.extractLsb' 16 8, v.extractLsb' 8 8, v.extractLsb' 0 8] s ∧
    PackRule (.pkF64 v) ⟨0x29000000, [v], []⟩
      [v.extractLsb' 56 8, v.extractLsb' 48 8, v.extractLsb' 40 8, v.extractLsb' 32 8,
        v.extractLsb' 24 8, v.extractLsb' 16 8, v.extractLsb' 8 8, v.extractLsb' 0 8] s

/-- The primitive unpacks (42_primitive.md R153 to R162). -/
def Obligations.PrimitiveUnpacksAnswerTheField : Prop :=
  ∀ s : State, s.legal = true →
    UnpackRule .upU8 ⟨0x30000000, [], []⟩ 1
      (BitVec.ofNat 64 (beWord s.mem s.cursor.toNat 1)) s ∧
    UnpackRule .upU16 ⟨0x31000000, [], []⟩ 2
      (BitVec.ofNat 64 (beWord s.mem s.cursor.toNat 2)) s ∧
    UnpackRule .upU32 ⟨0x32000000, [], []⟩ 4
      (BitVec.ofNat 64 (beWord s.mem s.cursor.toNat 4)) s ∧
    UnpackRule .upU64 ⟨0x33000000, [], []⟩ 8
      (BitVec.ofNat 64 (beWord s.mem s.cursor.toNat 8)) s ∧
    UnpackRule .upI8 ⟨0x34000000, [], []⟩ 1
      ((BitVec.ofNat 8 (beWord s.mem s.cursor.toNat 1)).signExtend 64) s ∧
    UnpackRule .upI16 ⟨0x35000000, [], []⟩ 2
      ((BitVec.ofNat 16 (beWord s.mem s.cursor.toNat 2)).signExtend 64) s ∧
    UnpackRule .upI32 ⟨0x36000000, [], []⟩ 4
      ((BitVec.ofNat 32 (beWord s.mem s.cursor.toNat 4)).signExtend 64) s ∧
    UnpackRule .upI64 ⟨0x37000000, [], []⟩ 8
      ((BitVec.ofNat 64 (beWord s.mem s.cursor.toNat 8)).signExtend 64) s ∧
    UnpackRule .upF32 ⟨0x38000000, [], []⟩ 4
      (BitVec.ofNat 64 (beWord s.mem s.cursor.toNat 4)) s ∧
    UnpackRule .upF64 ⟨0x39000000, [], []⟩ 8
      (BitVec.ofNat 64 (beWord s.mem s.cursor.toNat 8)) s

/-- PK_BLOB (42_primitive.md R151). -/
def Obligations.BlobPackStoresLengthAndBody : Prop :=
  ∀ (n : Op) (data : List Byte) (s : State), s.wf = true →
    encode (.pkBlob n data) = ⟨0x2A000000, [n], data⟩ ∧
    (65535 < n.toNat → exec (.pkBlob n data) s = .refused (.packet .badLength)) ∧
    (n.toNat ≤ 65535 → data.length ≠ n.toNat →
      exec (.pkBlob n data) s = .refused (.packet .badPacket)) ∧
    (n.toNat ≤ 65535 → data.length = n.toNat →
      (s.fits (2 + n.toNat) = true →
        PackEffect (.pkBlob n data) s (n.extractLsb' 8 8 :: n.extractLsb' 0 8 :: data) 0) ∧
      (s.fits (2 + n.toNat) = false → exec (.pkBlob n data) s = .next (s.answer .done)))

/-- UP_BLOB (42_primitive.md R163). -/
def Obligations.BlobUnpackAnswersTheBody : Prop :=
  ∀ s : State, s.legal = true →
    let l := beWord s.mem s.cursor.toNat 2
    encode .upBlob = ⟨0x3A000000, [], []⟩ ∧
    (s.fits 2 = false → exec .upBlob s = .next (s.answer ⟨0, [0], []⟩)) ∧
    (s.fits 2 = true → s.fits (2 + l) = false → exec .upBlob s = .next (s.answer ⟨0, [0], []⟩)) ∧
    (s.fits 2 = true → s.fits (2 + l) = true →
      ∃ t, exec .upBlob s = .next t ∧ SameBuffer s t ∧ t.mem = s.mem ∧ t.draws = s.draws ∧
        t.cursor.toNat = s.cursor.toNat + 2 + l ∧
        Answers s t ⟨0, [BitVec.ofNat 64 l],
          (List.range l).map fun k => s.mem.read (s.cursor.toNat + 2 + k)⟩)

/-- The round trip of every primitive pair (42_primitive.md R164). -/
def Obligations.PrimitiveRoundTrip : Prop :=
  ∀ (v : Op) (data : List Byte) (s : State), s.wf = true →
    (s.fits 1 = true → RoundTrips (.pkU8 v) .upU8 1 [(v.setWidth 8).setWidth 64] s) ∧
    (s.fits 2 = true → RoundTrips (.pkU16 v) .upU16 2 [(v.setWidth 16).setWidth 64] s) ∧
    (s.fits 4 = true → RoundTrips (.pkU32 v) .upU32 4 [(v.setWidth 32).setWidth 64] s) ∧
    (s.fits 8 = true → RoundTrips (.pkU64 v) .upU64 8 [v] s) ∧
    (s.fits 1 = true → RoundTrips (.pkI8 v) .upI8 1 [(v.setWidth 8).signExtend 64] s) ∧
    (s.fits 2 = true → RoundTrips (.pkI16 v) .upI16 2 [(v.setWidth 16).signExtend 64] s) ∧
    (s.fits 4 = true → RoundTrips (.pkI32 v) .upI32 4 [(v.setWidth 32).signExtend 64] s) ∧
    (s.fits 8 = true → RoundTrips (.pkI64 v) .upI64 8 [v] s) ∧
    (s.fits 4 = true → RoundTrips (.pkF32 v) .upF32 4 [(v.setWidth 32).setWidth 64] s) ∧
    (s.fits 8 = true → RoundTrips (.pkF64 v) .upF64 8 [v] s) ∧
    (data.length ≤ 65535 → s.fits (2 + data.length) = true →
      ∃ t, execAll [.pkBlob (BitVec.ofNat 64 data.length) data,
          .reverse (BitVec.ofNat 64 (2 + data.length)), .upBlob] s = .next t ∧
        t.responses = s.responses ++
          [.done, .done, ⟨0, [BitVec.ofNat 64 data.length], data⟩] ∧
        t.cursor.toNat = s.cursor.toNat + 2 + data.length ∧ SameBuffer s t)

/-- The quantize-and-pack commands (43_quantization.md R180 to R183, R188 to R194). The counter of draws is the model's own field (log 4). -/
def Obligations.QuantPacksStoreTheCode : Prop :=
  ∀ (a : QArg) (s : State), s.wf = true →
    QuantPackRule (.qpk8S a) 0x41000000 .S 1 a s ∧
    QuantPackRule (.qpk16S a) 0x42000000 .S 2 a s ∧
    QuantPackRule (.qpk24S a) 0x43000000 .S 3 a s ∧
    QuantPackRule (.qpk32S a) 0x44000000 .S 4 a s ∧
    QuantPackRule (.qpk8D a) 0x61000000 .D 1 a s ∧
    QuantPackRule (.qpk16D a) 0x62000000 .D 2 a s ∧
    QuantPackRule (.qpk24D a) 0x63000000 .D 3 a s ∧
    QuantPackRule (.qpk32D a) 0x64000000 .D 4 a s ∧
    QuantPackRule (.qpk40D a) 0x65000000 .D 5 a s ∧
    QuantPackRule (.qpk48D a) 0x66000000 .D 6 a s ∧
    QuantPackRule (.qpk56D a) 0x67000000 .D 7 a s

/-- The unpack-and-dequantize commands (43_quantization.md R184 to R187, R195 to R201). Which pattern a NaN answer has is the model's choice (log 5). -/
def Obligations.QuantUnpacksAnswerTheValue : Prop :=
  ∀ (r : QRange) (s : State), s.legal = true →
    QuantUnpackRule (.qup8S r) 0x51000000 .S 1 r s ∧
    QuantUnpackRule (.qup16S r) 0x52000000 .S 2 r s ∧
    QuantUnpackRule (.qup24S r) 0x53000000 .S 3 r s ∧
    QuantUnpackRule (.qup32S r) 0x54000000 .S 4 r s ∧
    QuantUnpackRule (.qup8D r) 0x71000000 .D 1 r s ∧
    QuantUnpackRule (.qup16D r) 0x72000000 .D 2 r s ∧
    QuantUnpackRule (.qup24D r) 0x73000000 .D 3 r s ∧
    QuantUnpackRule (.qup32D r) 0x74000000 .D 4 r s ∧
    QuantUnpackRule (.qup40D r) 0x75000000 .D 5 r s ∧
    QuantUnpackRule (.qup48D r) 0x76000000 .D 6 r s ∧
    QuantUnpackRule (.qup56D r) 0x77000000 .D 7 r s

/-- What the rules give exactly of the round trip (43_quantization.md R202). Which pattern a NaN answer has is the model's choice (log 5). -/
def Obligations.QuantRoundTrip : Prop :=
  ∀ (v : Op) (r : QRange) (s : State), s.wf = true →
    (s.fits 1 = true → QuantRoundTrips (.qpk8S ⟨v, r.min, r.max⟩) (.qup8S r) .S 1 v r s) ∧
    (s.fits 2 = true → QuantRoundTrips (.qpk16S ⟨v, r.min, r.max⟩) (.qup16S r) .S 2 v r s) ∧
    (s.fits 3 = true → QuantRoundTrips (.qpk24S ⟨v, r.min, r.max⟩) (.qup24S r) .S 3 v r s) ∧
    (s.fits 4 = true → QuantRoundTrips (.qpk32S ⟨v, r.min, r.max⟩) (.qup32S r) .S 4 v r s) ∧
    (s.fits 1 = true → QuantRoundTrips (.qpk8D ⟨v, r.min, r.max⟩) (.qup8D r) .D 1 v r s) ∧
    (s.fits 2 = true → QuantRoundTrips (.qpk16D ⟨v, r.min, r.max⟩) (.qup16D r) .D 2 v r s) ∧
    (s.fits 3 = true → QuantRoundTrips (.qpk24D ⟨v, r.min, r.max⟩) (.qup24D r) .D 3 v r s) ∧
    (s.fits 4 = true → QuantRoundTrips (.qpk32D ⟨v, r.min, r.max⟩) (.qup32D r) .D 4 v r s) ∧
    (s.fits 5 = true → QuantRoundTrips (.qpk40D ⟨v, r.min, r.max⟩) (.qup40D r) .D 5 v r s) ∧
    (s.fits 6 = true → QuantRoundTrips (.qpk48D ⟨v, r.min, r.max⟩) (.qup48D r) .D 6 v r s) ∧
    (s.fits 7 = true → QuantRoundTrips (.qpk56D ⟨v, r.min, r.max⟩) (.qup56D r) .D 7 v r s)

/-- The table of 43_quantization.md R173 and that of 44_bitpack.md R212, by the integer each constant is. -/
def Obligations.ScaleConstants : Prop :=
  ([8, 16, 24, 32].map fun n => (Config.qnum.scaleK .S n).trunc) =
      [some 255, some 65535, some 16777215, some 4294967296] ∧
    ([8, 16, 24, 32, 40, 48, 56].map fun n => (Config.qnum.scaleK .D n).trunc) =
      [some 255, some 65535, some 16777215, some 4294967295, some 1099511627775,
        some 281474976710655, some 72057594037927936] ∧
    ([1, 2, 4, 5, 6, 7, 8, 10, 11].map fun n => (Config.qnum.scaleK .S n).trunc) =
      [some 1, some 3, some 15, some 31, some 63, some 127, some 255, some 1023, some 2047]

/-- `v = lo` gives code 0 (43_quantization.md R179), for every finite `lo`. -/
def Obligations.MinimumPacksAsCodeZero : Prop :=
  ∀ (fmt : Fmt) (n : Nat) (lo hi : Op), 0 < n → n ≤ 56 →
    (Fl.ofBits fmt hi).gt (Fl.ofBits fmt lo) = true → (Fl.ofBits fmt lo).trunc ≠ none →
    codeOf fmt n ⟨lo, lo, hi⟩ = some 0

/-- The top-code hazard (43_quantization.md R178) and its absence elsewhere (44_bitpack.md R212). -/
def Obligations.MaximumPacksAsTopCodeOrWraps : Prop :=
  ∀ (fmt : Fmt) (lo hi : Op),
    (Fl.ofBits fmt hi).gt (Fl.ofBits fmt lo) = true →
    (fsub fmt (Fl.ofBits fmt hi) (Fl.ofBits fmt lo)).trunc ≠ none →
    (fmt = .S → ∀ n ∈ [1, 2, 4, 5, 6, 7, 8, 10, 11, 16, 24],
      codeOf .S n ⟨hi, lo, hi⟩ = some (2 ^ n - 1)) ∧
    (fmt = .D → ∀ n ∈ [8, 16, 24, 32, 40, 48],
      codeOf .D n ⟨hi, lo, hi⟩ = some (2 ^ n - 1)) ∧
    (fmt = .S → codeOf .S 32 ⟨hi, lo, hi⟩ = some 0) ∧
    (fmt = .D → codeOf .D 56 ⟨hi, lo, hi⟩ = some 0)

/-- For a valid range and `lo <= v <= hi` the scaled value is finite (43_quantization.md R178). -/
def Obligations.InRangeValuesTakeNoDraw : Prop :=
  ∀ (fmt : Fmt) (n : Nat) (v lo hi : Op), 0 < n → n ≤ 56 →
    (Fl.ofBits fmt hi).gt (Fl.ofBits fmt lo) = true →
    (fsub fmt (Fl.ofBits fmt hi) (Fl.ofBits fmt lo)).trunc ≠ none →
    Fl.ofBits fmt v ≠ .nan →
    (Fl.ofBits fmt lo).gt (Fl.ofBits fmt v) = false →
    (Fl.ofBits fmt v).gt (Fl.ofBits fmt hi) = false →
    ∃ q, codeOf fmt n ⟨v, lo, hi⟩ = some q ∧ q < 2 ^ n

/-- One rounding, to nearest, ties to even at the format's own places, overflow to infinity (00_scope.md R16). What IEEE 754 says is PRESUMED (log 9). -/
def Obligations.RoundingGivesTheNearestValue : Prop :=
  ∀ (fmt : Fmt) (neg : Bool) (num den : Nat), 0 < den →
    RoundsTo fmt neg ((num : ℝ) / den) (Fl.round fmt neg num den)

/-- Round to nearest, ties to even, on integers (00_scope.md R16). -/
def Obligations.RneIsNearestTiesToEven : Prop :=
  ∀ num den : Nat, 0 < den →
    2 * (rne num den * den) ≤ 2 * num + den ∧ 2 * num ≤ 2 * (rne num den * den) + den ∧
    (2 * (rne num den * den) = 2 * num + den ∨ 2 * num = 2 * (rne num den * den) + den →
      rne num den % 2 = 0)

/-- The integer root that `fsqrt` rounds from (00_scope.md R16). -/
def Obligations.SquareRootOfAnInteger : Prop :=
  ∀ n : Nat, isqrt n * isqrt n ≤ n ∧ n < (isqrt n + 1) * (isqrt n + 1)

/-- `bits` undoes `val` (00_scope.md R16). What a NaN's pattern is is free (log 5). -/
def Obligations.FloatPatternsRoundTrip : Prop :=
  ∀ b : Op,
    (Fl.ofBits .S b ≠ .nan → (Fl.ofBits .S b).toBits .S 0 = (b.setWidth 32).setWidth 64) ∧
    (Fl.ofBits .D b ≠ .nan → (Fl.ofBits .D b).toBits .D 0 = b) ∧
    Fl.ofBits .S (nanBits .S b) = .nan ∧ (nanBits .S b).toNat < 2 ^ 32 ∧
    Fl.ofBits .D (nanBits .D b) = .nan

/-- The bit-pack commands (44_bitpack.md R214 to R220), their shifts written out. The counter of draws is the model's own field (log 4). -/
def Obligations.BitPacksStoreTheWord : Prop :=
  ∀ (a b c d : QArg) (s : State), s.wf = true →
    BitPackRule (.bpk71 a b) 0x80000000 1 [(7, a), (1, b)]
      (fun q => q 0 <<< 1 ||| q 1) s ∧
    BitPackRule (.bpk62 a b) 0x81000000 1 [(6, a), (2, b)]
      (fun q => q 0 <<< 2 ||| q 1) s ∧
    BitPackRule (.bpk44 a b) 0x82000000 1 [(4, a), (4, b)]
      (fun q => q 0 <<< 4 ||| q 1) s ∧
    BitPackRule (.bpk655 a b c) 0x83000000 2 [(6, a), (5, b), (5, c)]
      (fun q => q 0 <<< 10 ||| q 1 <<< 5 ||| q 2) s ∧
    BitPackRule (.bpk111110 a b c) 0x84000000 4 [(11, a), (11, b), (10, c)]
      (fun q => q 0 <<< 21 ||| q 1 <<< 10 ||| q 2) s ∧
    BitPackRule (.bpk10X4 a b c d) 0x85000000 5 [(10, a), (10, b), (10, c), (10, d)]
      (fun q => q 0 <<< 30 ||| q 1 <<< 20 ||| q 2 <<< 10 ||| q 3) s ∧
    BitPackRule (.bpk1111108 a b c d) 0x86000000 5 [(11, a), (11, b), (10, c), (8, d)]
      (fun q => q 0 <<< 29 ||| q 1 <<< 18 ||| q 2 <<< 8 ||| q 3) s

/-- The bit-unpack commands (44_bitpack.md R221 to R227), their shifts and masks written out. Which pattern a NaN answer has is the model's choice (log 5). -/
def Obligations.BitUnpacksAnswerTheFields : Prop :=
  ∀ (a b c d : QRange) (s : State), s.legal = true →
    BitUnpackRule (.bup71 a b) 0x90000000 1
      (fun w => [(7, w >>> 1 % 128, a), (1, w % 2, b)]) s ∧
    BitUnpackRule (.bup62 a b) 0x91000000 1
      (fun w => [(6, w >>> 2 % 64, a), (2, w % 4, b)]) s ∧
    BitUnpackRule (.bup44 a b) 0x92000000 1
      (fun w => [(4, w >>> 4 % 16, a), (4, w % 16, b)]) s ∧
    BitUnpackRule (.bup655 a b c) 0x93000000 2
      (fun w => [(6, w >>> 10 % 64, a), (5, w >>> 5 % 32, b), (5, w % 32, c)]) s ∧
    BitUnpackRule (.bup111110 a b c) 0x94000000 4
      (fun w => [(11, w >>> 21 % 2048, a), (11, w >>> 10 % 2048, b), (10, w % 1024, c)]) s ∧
    BitUnpackRule (.bup10X4 a b c d) 0x95000000 5
      (fun w => [(10, w >>> 30 % 1024, a), (10, w >>> 20 % 1024, b), (10, w >>> 10 % 1024, c), (10, w % 1024, d)]) s ∧
    BitUnpackRule (.bup1111108 a b c d) 0x96000000 5
      (fun w => [(11, w >>> 29 % 2048, a), (11, w >>> 18 % 2048, b), (10, w >>> 8 % 1024, c), (8, w % 256, d)]) s

/-- The extraction of 44_bitpack.md R211 is the exact inverse of the assembly (R228). -/
def Obligations.FieldExtractionInvertsAssembly : Prop :=
  ∀ fs : List (Nat × Nat), (∀ f ∈ fs, f.2 < 2 ^ f.1) →
    assemble fs < 2 ^ totalWidth fs ∧
    extract (assemble fs) fs = fs.map fun f => (f.1, f.2, f.2)

/-- The round trip of every layout (44_bitpack.md R228). Which pattern a NaN answer has is the model's choice (log 5). -/
def Obligations.BitPackRoundTrip : Prop :=
  ∀ (va vb vc vd : Op) (a b c d : QRange) (s : State), s.wf = true →
    (s.fits 1 = true → BitRoundTrips (.bpk71 ⟨va, a.min, a.max⟩ ⟨vb, b.min, b.max⟩)
      (.bup71 a b) 1 [(7, va, a), (1, vb, b)] s) ∧
    (s.fits 1 = true → BitRoundTrips (.bpk62 ⟨va, a.min, a.max⟩ ⟨vb, b.min, b.max⟩)
      (.bup62 a b) 1 [(6, va, a), (2, vb, b)] s) ∧
    (s.fits 1 = true → BitRoundTrips (.bpk44 ⟨va, a.min, a.max⟩ ⟨vb, b.min, b.max⟩)
      (.bup44 a b) 1 [(4, va, a), (4, vb, b)] s) ∧
    (s.fits 2 = true → BitRoundTrips (.bpk655 ⟨va, a.min, a.max⟩ ⟨vb, b.min, b.max⟩ ⟨vc, c.min, c.max⟩)
      (.bup655 a b c) 2 [(6, va, a), (5, vb, b), (5, vc, c)] s) ∧
    (s.fits 4 = true → BitRoundTrips (.bpk111110 ⟨va, a.min, a.max⟩ ⟨vb, b.min, b.max⟩ ⟨vc, c.min, c.max⟩)
      (.bup111110 a b c) 4 [(11, va, a), (11, vb, b), (10, vc, c)] s) ∧
    (s.fits 5 = true → BitRoundTrips (.bpk10X4 ⟨va, a.min, a.max⟩ ⟨vb, b.min, b.max⟩ ⟨vc, c.min, c.max⟩ ⟨vd, d.min, d.max⟩)
      (.bup10X4 a b c d) 5 [(10, va, a), (10, vb, b), (10, vc, c), (10, vd, d)] s) ∧
    (s.fits 5 = true → BitRoundTrips (.bpk1111108 ⟨va, a.min, a.max⟩ ⟨vb, b.min, b.max⟩ ⟨vc, c.min, c.max⟩ ⟨vd, d.min, d.max⟩)
      (.bup1111108 a b c d) 5 [(11, va, a), (11, vb, b), (10, vc, c), (8, vd, d)] s)

/-- The full-precision 2-vector (45_composite.md R241). -/
def Obligations.VectorRoundTrip : Prop :=
  ∀ (x y : Op) (s : State), s.wf = true →
    (Pseudo.v2pkF x y).expand = [.pkF32 x, .pkF32 y] ∧ Pseudo.v2upF.expand = [.upF32, .upF32] ∧
    (s.fits 8 = true →
      ∃ t, execAll ((Pseudo.v2pkF x y).expand ++ [.reverse 8] ++ Pseudo.v2upF.expand) s = .next t ∧
        newWords s t = [(x.setWidth 32).setWidth 64, (y.setWidth 32).setWidth 64] ∧
        t.cursor.toNat = s.cursor.toNat + 8 ∧ SameBuffer s t ∧
        Stores s t s.cursor.toNat
          [x.extractLsb' 24 8, x.extractLsb' 16 8, x.extractLsb' 8 8, x.extractLsb' 0 8,
            y.extractLsb' 24 8, y.extractLsb' 16 8, y.extractLsb' 8 8, y.extractLsb' 0 8])

/-- A composite is not atomic (45_composite.md R252). -/
def Obligations.PartialCompositePack : Prop :=
  ∀ (x y z lo hi : Op) (s : State), s.wf = true → s.fits 4 = true → s.fits 6 = false →
    ∃ t qx kx qy ky, execAll (Pseudo.v3pk .t16 x y z lo hi).expand s = .next t ∧
      FieldCode 16 (codeOf .S 16 ⟨x, lo, hi⟩) qx kx ∧
      FieldCode 16 (codeOf .S 16 ⟨y, lo, hi⟩) qy ky ∧
      t.responses = s.responses ++ [.done, .done, .done] ∧ SameBuffer s t ∧
      t.draws = s.draws + kx + ky ∧ t.cursor.toNat = s.cursor.toNat + 4 ∧
      Stores s t s.cursor.toNat (specLE 2 qx ++ specLE 2 qy)

/-- An under-read of all four components gives the identity (45_composite.md R251), whatever the free bits (log 17). -/
def Obligations.QuaternionUnderReadGivesIdentity : Prop :=
  ∀ (n : Tier) (lo hi : Op) (free : Nat → BitVec 64) (s : State),
    (s.fits 1 = false →
      (∃ t, execAll (Pseudo.qtup n lo hi).expand s = .next t ∧ t.cursor = s.cursor ∧
        (Pseudo.qtup n lo hi).answers Config.qnum free (newWords s t) = [0, 0, 0, 0x3F800000]) ∧
      (∃ t, execAll (Pseudo.qtupU n lo hi).expand s = .next t ∧
        (Pseudo.qtupU n lo hi).answers Config.qnum free (newWords s t) = [0, 0, 0, 0])) ∧
    (s.fits 5 = false →
      (∃ t, execAll (Pseudo.qtup40 lo hi).expand s = .next t ∧ t.cursor = s.cursor ∧
        (Pseudo.qtup40 lo hi).answers Config.qnum free (newWords s t) = [0, 0, 0, 0x3F800000]) ∧
      (∃ t, execAll (Pseudo.qtup40U lo hi).expand s = .next t ∧
        (Pseudo.qtup40U lo hi).answers Config.qnum free (newWords s t) = [0, 0, 0, 0]))

/-- Every primitive is one rounding of the exact result (00_scope.md R16), over the real numbers. What IEEE 754 says is PRESUMED (log 9). -/
def Obligations.FloatOperationsRoundOnce : Prop :=
  ∀ (fmt : Fmt) (n1 n2 : Bool) (m1 m2 : Nat) (e1 e2 : Int),
    let a := Fl.fin n1 m1 e1
    let b := Fl.fin n2 m2 e2
    let x := signedValue n1 m1 e1
    let y := signedValue n2 m2 e2
    (x + y ≠ 0 → RoundsTo fmt (decide (x + y < 0)) ((|x + y| : ℚ) : ℝ) (fadd fmt a b)) ∧
    (x + y = 0 → fadd fmt a b = .fin (n1 && n2) 0 fmt.eMin) ∧
    (x - y ≠ 0 → RoundsTo fmt (decide (x - y < 0)) ((|x - y| : ℚ) : ℝ) (fsub fmt a b)) ∧
    (x - y = 0 → fsub fmt a b = .fin (n1 && !n2) 0 fmt.eMin) ∧
    RoundsTo fmt (n1 ^^ n2) ((|x * y| : ℚ) : ℝ) (fmul fmt a b) ∧
    (y ≠ 0 → RoundsTo fmt (n1 ^^ n2) ((|x / y| : ℚ) : ℝ) (fdiv fmt a b)) ∧
    (n1 = false → RoundsTo fmt false (Real.sqrt (x : ℝ)) (fsqrt fmt a)) ∧
    RoundsTo fmt false (m1 : ℝ) (cvt fmt m1) ∧
    (0 < m2 → RoundsTo fmt false ((m1 : ℝ) / m2) (constant fmt m1 m2))

/-- The results IEEE 754 gives by default (00_scope.md R16). What IEEE 754 says is PRESUMED (log 9). -/
def Obligations.SpecialFloatResults : Prop :=
  ∀ (fmt : Fmt) (a : Fl) (g h : Bool) (m : Nat) (e e' : Int),
    (fadd fmt .nan a = .nan ∧ fadd fmt a .nan = .nan ∧ fsub fmt .nan a = .nan ∧
      fsub fmt a .nan = .nan ∧ fmul fmt .nan a = .nan ∧ fmul fmt a .nan = .nan ∧
      fdiv fmt .nan a = .nan ∧ fdiv fmt a .nan = .nan ∧ fsqrt fmt .nan = .nan) ∧
    (fadd fmt (.inf g) (.inf !g) = .nan ∧ fsub fmt (.inf g) (.inf g) = .nan ∧
      fmul fmt (.inf g) (.fin h 0 e) = .nan ∧ fmul fmt (.fin h 0 e) (.inf g) = .nan ∧
      fdiv fmt (.inf g) (.inf h) = .nan ∧ fdiv fmt (.fin g 0 e) (.fin h 0 e') = .nan ∧
      fsqrt fmt (.inf true) = .nan ∧ (m ≠ 0 → fsqrt fmt (.fin true m e) = .nan)) ∧
    (m ≠ 0 → fdiv fmt (.fin g m e) (.fin h 0 e') = .inf (g ^^ h)) ∧
    (fadd fmt (.inf g) (.inf g) = .inf g ∧ fsub fmt (.inf g) (.inf !g) = .inf g ∧
      fadd fmt (.inf g) (.fin h m e) = .inf g ∧ fadd fmt (.fin h m e) (.inf g) = .inf g ∧
      fsub fmt (.inf g) (.fin h m e) = .inf g ∧ fsub fmt (.fin h m e) (.inf g) = .inf !g ∧
      fmul fmt (.inf g) (.inf h) = .inf (g ^^ h) ∧
      (m ≠ 0 → fmul fmt (.inf g) (.fin h m e) = .inf (g ^^ h)) ∧
      (m ≠ 0 → fmul fmt (.fin h m e) (.inf g) = .inf (h ^^ g)) ∧
      fdiv fmt (.inf g) (.fin h m e) = .inf (g ^^ h) ∧ fsqrt fmt (.inf false) = .inf false) ∧
    fdiv fmt (.fin g m e) (.inf h) = .fin (g ^^ h) 0 fmt.eMin ∧
    fsqrt fmt (.fin true 0 e) = .fin true 0 fmt.eMin

/-- The comparison `hi > lo` of QENC and QDEC (43_quantization.md R174, R175). What IEEE 754 says is PRESUMED (log 9). -/
def Obligations.ComparisonIsOfTheNumbers : Prop :=
  ∀ (n1 n2 : Bool) (m1 m2 : Nat) (e1 e2 : Int) (a : Fl),
    ((Fl.fin n1 m1 e1).gt (.fin n2 m2 e2) = true ↔ signedValue n2 m2 e2 < signedValue n1 m1 e1) ∧
    Fl.nan.gt a = false ∧ a.gt .nan = false ∧
    ((Fl.inf false).gt a = true ↔ a ≠ .nan ∧ a ≠ .inf false) ∧ (Fl.inf true).gt a = false ∧
    (a.gt (.inf true) = true ↔ a ≠ .nan ∧ a ≠ .inf true) ∧ a.gt (.inf false) = false

/-- QENC (43_quantization.md R174): where the code is a draw (60_exceptions.md R263), and the wrap of a value outside the range. -/
def Obligations.CodesWrapOrAreFree : Prop :=
  (∀ (fmt : Fmt) (n : Nat) (f : QArg),
      let v := Fl.ofBits fmt f.value
      let lo := Fl.ofBits fmt f.min
      let hi := Fl.ofBits fmt f.max
      let s := fmul fmt (fdiv fmt (fsub fmt v lo) (fsub fmt hi lo)) (constant fmt (2 ^ n - 1) 1)
      (hi.gt lo = false → codeOf fmt n f = none) ∧
      (lo = .nan ∨ hi = .nan → codeOf fmt n f = none) ∧
      (v = .nan ∨ (∃ g, v = .inf g) → codeOf fmt n f = none) ∧
      (s = .nan ∨ (∃ g, s = .inf g) → codeOf fmt n f = none) ∧
      (hi.gt lo = true → ∀ neg m e, s = .fin neg m e →
        codeOf fmt n f = some
          (((if neg then -1 else 1) * ⌊(m : ℚ) * 2 ^ e⌋ : Int) % 2 ^ n).toNat)) ∧
    codeOf .S 8 ⟨0x3FC00000, 0, 0x3F800000⟩ = some 126 ∧
    codeOf .S 8 ⟨0xBE800000, 0, 0x3F800000⟩ = some 193

/-- QDEC (43_quantization.md R175): where the answer is a draw, its formula, and the corner cases of R184. -/
def Obligations.DecodedValueOfACode : Prop :=
  ∀ (fmt : Fmt) (n : Nat) (r : QRange), 0 < n → n ≤ 56 →
    let lo := Fl.ofBits fmt r.min
    let hi := Fl.ofBits fmt r.max
    let d := fsub fmt hi lo
    (∀ q, valueOf fmt n q r = none ↔ hi.gt lo = false) ∧
    (hi.gt lo = true →
      (∀ q, valueOf fmt n q r = some
        (fadd fmt (fmul fmt (fdiv fmt (cvt fmt q) (constant fmt (2 ^ n - 1) 1)) d) lo)) ∧
      (d.trunc ≠ none → valueOf fmt n 0 r =
        some (if lo = .fin true 0 fmt.eMin then .fin false 0 fmt.eMin else lo)) ∧
      (d.trunc = none → valueOf fmt n 0 r = some .nan) ∧
      valueOf fmt n (2 ^ n - 1) r = some (fadd fmt d lo))

/-- QNUM is a replaceable parameter (00_scope.md R9), and whatever the arithmetic the state change keeps its shape (43_quantization.md R172). -/
def Obligations.AnotherArithmeticKeepsTheShape : Prop :=
  (∀ i s, execWith Config.qnum i s = exec i s) ∧ (∀ s, stepWith Config.qnum s = step s) ∧
    ∀ (Q : QNum) (i : Instr) (s : State), s.wf = true →
      (∀ t, exec i s = .next t → ∃ u, execWith Q i s = .next u ∧ SameBuffer t u ∧
        u.cursor = t.cursor ∧ u.pc = t.pc ∧ u.commands = t.commands ∧
        (u.responses.map fun r => (r.rh, r.res.length, r.rdata)) =
          (t.responses.map fun r => (r.rh, r.res.length, r.rdata)) ∧
        (∀ x, x < s.cursor.toNat ∨ s.cursor.toNat + (accessBytes i).getD 0 ≤ x →
          u.mem.read x = t.mem.read x) ∧
        (mayDraw i = false → u = t)) ∧
      (∀ c, exec i s = .refused c → execWith Q i s = .refused c)
end

