-- ==== Sys2Proof/Laws/Memory.lean ====
section
/-! SUPPORT. The buffer memory: what a write does to every read, and that every operation keeps the
canonical form (10_state.md R24). -/

namespace Sys2Proof.Machine.Memory

theorem risingFrom_mono {a b : Nat} (h : a ≤ b) {m : Memory} (hm : risingFrom b m = true) :
    risingFrom a m = true := by
  cases m with
  | nil => rfl
  | cons c m =>
    simp only [risingFrom, Bool.and_eq_true, decide_eq_true_eq] at hm ⊢
    exact ⟨h.trans hm.1, hm.2⟩

/-- Below the first address everything reads as unlisted. -/
theorem read_below {m : Memory} {a x : Nat} (hm : risingFrom a m = true) (hx : x < a) :
    m.read x = unlisted := by
  induction m generalizing a with
  | nil => rfl
  | cons c m ih =>
    obtain ⟨k, b⟩ := c
    simp only [risingFrom, Bool.and_eq_true, decide_eq_true_eq] at hm
    have hk : k ≠ x := by omega
    simp only [read, hk, if_false]
    exact ih hm.2 (by omega)

theorem read_cell_append {a x : Nat} {b : Byte} {m : Memory} :
    (cell a b ++ m).read x = if a = x ∧ b ≠ unlisted then b else m.read x := by
  unfold cell
  by_cases hb : b = unlisted <;> by_cases ha : a = x <;> simp [hb, ha, read]

theorem rising_cell_append {n a : Nat} {b : Byte} {m : Memory} (ha : n ≤ a)
    (hm : risingFrom (a + 1) m = true) : risingFrom n (cell a b ++ m) = true := by
  unfold cell
  by_cases hb : b = unlisted
  · simpa [hb] using risingFrom_mono (by omega) hm
  · simp [hb, risingFrom, ha, hm]

/-- A write keeps the addresses rising. -/
theorem rising_write {m : Memory} {n a : Nat} {b : Byte} (ha : n ≤ a)
    (hm : risingFrom n m = true) : risingFrom n (m.write a b) = true := by
  induction m generalizing n with
  | nil => simpa [write] using rising_cell_append (b := b) ha (m := []) rfl
  | cons c m ih =>
    obtain ⟨k, v⟩ := c
    simp only [risingFrom, Bool.and_eq_true, decide_eq_true_eq] at hm
    simp only [write]
    split
    · exact rising_cell_append ha (by simp [risingFrom, hm.2]; omega)
    · split
      · subst a; exact rising_cell_append ha hm.2
      · simp only [risingFrom, Bool.and_eq_true, decide_eq_true_eq]
        exact ⟨hm.1, ih (by omega) hm.2⟩

/-- A write gives its address the byte written. -/
theorem read_write_same {m : Memory} {n a : Nat} {b : Byte} (hm : risingFrom n m = true) :
    (m.write a b).read a = b := by
  have key : ∀ {m' : Memory}, m'.read a = unlisted → (cell a b ++ m').read a = b := by
    intro m' h
    rw [read_cell_append]
    by_cases hb : b = unlisted <;> simp [hb, h]
  induction m generalizing n with
  | nil => simpa [write] using key (m' := []) rfl
  | cons c m ih =>
    obtain ⟨k, v⟩ := c
    simp only [risingFrom, Bool.and_eq_true, decide_eq_true_eq] at hm
    simp only [write]
    split
    · refine key (read_below (a := k) ?_ ‹_›)
      simp [risingFrom, hm.2]
    · split
      · subst a; exact key (read_below hm.2 (by omega))
      · have hk : k ≠ a := by omega
        simpa [read, hk] using ih hm.2

/-- A write leaves every other address alone. -/
theorem read_write_other {m : Memory} {a x : Nat} {b : Byte} (hx : x ≠ a) :
    (m.write a b).read x = m.read x := by
  have hax : ¬ a = x := fun h => hx h.symm
  induction m with
  | nil =>
    have := read_cell_append (a := a) (x := x) (b := b) (m := [])
    simpa [write, hax] using this
  | cons c m ih =>
    obtain ⟨k, v⟩ := c
    simp only [write]
    split
    · simp [read_cell_append, hax]
    · split
      · subst a; simp [read_cell_append, hax, read]
      · simp only [read, ih]

theorem all_write {m : Memory} {a : Nat} {b : Byte} {p : Host.Cell → Bool}
    (hm : m.all p = true) (hp : b ≠ unlisted → p (a, b) = true) : (m.write a b).all p = true := by
  have hc : (cell a b).all p = true := by
    unfold cell
    by_cases hb : b = unlisted
    · simp [hb]
    · simp [hb, hp hb]
  induction m with
  | nil => simpa [write] using hc
  | cons c m ih =>
    obtain ⟨k, v⟩ := c
    simp only [List.all_cons, Bool.and_eq_true] at hm
    simp only [write]
    split
    · rw [List.all_append, hc, List.all_cons, hm.1, hm.2]; rfl
    · split
      · rw [List.all_append, hc, hm.2]; rfl
      · rw [List.all_cons, hm.1, ih hm.2]; rfl

theorem wf_iff {m : Memory} :
    m.wf = true ↔ risingFrom 0 m = true ∧ m.all (fun c => c.2 != unlisted) = true := by
  simp [wf]

@[simp] theorem wf_nil : Memory.wf [] = true := rfl

/-- A write keeps the canonical form. -/
theorem wf_write {m : Memory} (a : Nat) (b : Byte) (hm : m.wf = true) :
    (m.write a b).wf = true := by
  rw [wf_iff] at hm ⊢
  exact ⟨rising_write (Nat.zero_le _) hm.1, all_write hm.2 (by simp)⟩

/-- A write of a byte list keeps the canonical form. -/
theorem wf_writeBytes {m : Memory} (a : Nat) (bs : List Byte) (hm : m.wf = true) :
    (m.writeBytes a bs).wf = true := by
  induction bs generalizing m a with
  | nil => exact hm
  | cons b bs ih => exact ih _ (wf_write a b hm)

theorem all_writeBytes {m : Memory} {a : Nat} {bs : List Byte} {p : Host.Cell → Bool}
    (hm : m.all p = true) (hp : ∀ x b, a ≤ x → x < a + bs.length → p (x, b) = true) :
    (m.writeBytes a bs).all p = true := by
  induction bs generalizing m a with
  | nil => exact hm
  | cons b bs ih =>
    refine ih (all_write hm fun _ => hp a b le_rfl (by simp)) fun x v h1 h2 => hp x v ?_ ?_
    · omega
    · simp only [List.length_cons]; omega

/-- What every address reads after a write of a byte list. -/
theorem read_writeBytes {m : Memory} (a : Nat) (bs : List Byte) (x : Nat) (hm : m.wf = true) :
    (m.writeBytes a bs).read x
      = if a ≤ x ∧ x < a + bs.length then bs.getD (x - a) 0 else m.read x := by
  induction bs generalizing m a with
  | nil => simp [writeBytes]
  | cons b bs ih =>
    rw [writeBytes, ih _ (wf_write a b hm)]
    by_cases hx : x = a
    · subst hx
      have := read_write_same (a := x) (b := b) (wf_iff.1 hm).1
      simp [this]
    · rw [read_write_other hx]
      by_cases hin : a + 1 ≤ x ∧ x < a + 1 + bs.length
      · have h2 : a ≤ x ∧ x < a + (b :: bs).length := by simp; omega
        have h3 : x - a = (x - (a + 1)) + 1 := by omega
        rw [if_pos hin, if_pos h2, h3]; rfl
      · have h2 : ¬ (a ≤ x ∧ x < a + (b :: bs).length) := by simp; omega
        rw [if_neg hin, if_neg h2]

@[simp] theorem readBytes_length (m : Memory) (a n : Nat) : (m.readBytes a n).length = n := by
  induction n generalizing a with
  | zero => rfl
  | succ n ih => simp [readBytes, ih]

theorem readBytes_getD (m : Memory) (a n k : Nat) (h : k < n) :
    (m.readBytes a n).getD k 0 = m.read (a + k) := by
  induction n generalizing a k with
  | zero => omega
  | succ n ih =>
    cases k with
    | zero => simp [readBytes]
    | succ k =>
      have := ih (a + 1) k (by omega)
      simp only [readBytes, List.getD_cons_succ, this]
      congr 1; omega

/-- Memories that read the same over a range give the same byte list. -/
theorem readBytes_congr {m m' : Memory} {a n : Nat}
    (h : ∀ x, a ≤ x → x < a + n → m.read x = m'.read x) : m.readBytes a n = m'.readBytes a n := by
  induction n generalizing a with
  | zero => rfl
  | succ n ih =>
    simp only [readBytes]
    rw [h a le_rfl (by omega), ih fun x h1 h2 => h x (by omega) (by omega)]

/-- Reading back what was written. -/
theorem readBytes_writeBytes {m : Memory} (a : Nat) (bs : List Byte) (hm : m.wf = true) :
    (m.writeBytes a bs).readBytes a bs.length = bs := by
  apply List.ext_getElem (by simp)
  intro k h1 h2
  have hg := readBytes_getD (m.writeBytes a bs) a bs.length k h2
  have hr := read_writeBytes a bs (a + k) hm
  have e1 := (List.getElem_eq_getD (h := h1) 0).symm
  have e2 := (List.getElem_eq_getD (h := h2) 0).symm
  rw [← e1, ← e2, hg, hr]
  simp [h2]

/-- Bytes outside a write read as before. -/
theorem readBytes_writeBytes_disjoint {m : Memory} {a b n : Nat} {bs : List Byte}
    (hm : m.wf = true) (h : b + n ≤ a ∨ a + bs.length ≤ b) :
    (m.writeBytes a bs).readBytes b n = m.readBytes b n := by
  refine readBytes_congr fun x h1 h2 => ?_
  rw [read_writeBytes a bs x hm, if_neg]
  omega

theorem rising_filter {m : Memory} {n : Nat} (p : Host.Cell → Bool) (hm : risingFrom n m = true) :
    risingFrom n (m.filter p) = true := by
  induction m generalizing n with
  | nil => rfl
  | cons c m ih =>
    obtain ⟨k, b⟩ := c
    simp only [risingFrom, Bool.and_eq_true, decide_eq_true_eq] at hm
    rw [List.filter_cons]
    split
    · simp only [risingFrom, Bool.and_eq_true, decide_eq_true_eq]
      exact ⟨hm.1, ih hm.2⟩
    · exact risingFrom_mono (by omega) (ih hm.2)

theorem all_clear {m : Memory} {p : Host.Cell → Bool} (n : Nat) (hm : m.all p = true) :
    (m.clear n).all p = true := by
  simp only [clear, List.all_filter]
  rw [List.all_eq_true] at hm ⊢
  intro c hc
  simp [hm c hc]

/-- Clearing keeps the canonical form. -/
theorem wf_clear {m : Memory} (n : Nat) (hm : m.wf = true) : (m.clear n).wf = true := by
  rw [wf_iff] at hm ⊢
  exact ⟨rising_filter _ hm.1, all_clear n hm.2⟩

/-- Clearing gives 00 below its bound and leaves the rest (40_buffer_cursor.md R110). -/
theorem read_clear (m : Memory) (n x : Nat) :
    (m.clear n).read x = if x < n then 0 else m.read x := by
  induction m with
  | nil => simp [clear, read, unlisted]
  | cons c m ih =>
    obtain ⟨k, b⟩ := c
    have hstep : clear ((k, b) :: m) n = if n ≤ k then (k, b) :: clear m n else clear m n := by
      unfold clear
      rw [List.filter_cons]
      by_cases h : n ≤ k <;> simp [h]
    rw [hstep]
    by_cases hk : n ≤ k
    · rw [if_pos hk]
      by_cases hx : k = x
      · have : ¬ x < n := by omega
        simp [read, hx, this]
      · simp [read, hx, ih]
    · rw [if_neg hk, ih]
      by_cases hx : x < n
      · simp [hx]
      · have : k ≠ x := by omega
        simp [hx, read, this]

end Sys2Proof.Machine.Memory
end

