-- ==== Sys2Proof/Laws/State.lean ====
section
/-! SUPPORT. One lemma per field per update of the state, and how the buffer's size and the bounds
predicate read through the updates. -/

namespace Sys2Proof.Machine

@[simp] theorem State.answer_cursor (r : Response) (s : State) :
    (s.answer r).cursor = s.cursor := rfl
@[simp] theorem State.answer_len (r : Response) (s : State) :
    (s.answer r).len = s.len := rfl
@[simp] theorem State.answer_fpw (r : Response) (s : State) :
    (s.answer r).fpw = s.fpw := rfl
@[simp] theorem State.answer_mem (r : Response) (s : State) :
    (s.answer r).mem = s.mem := rfl
@[simp] theorem State.answer_pc (r : Response) (s : State) :
    (s.answer r).pc = s.pc + 1 := rfl
@[simp] theorem State.answer_commands (r : Response) (s : State) :
    (s.answer r).commands = s.commands := rfl
@[simp] theorem State.answer_responses (r : Response) (s : State) :
    (s.answer r).responses = s.responses ++ [r] := rfl
@[simp] theorem State.answer_draws (r : Response) (s : State) :
    (s.answer r).draws = s.draws := rfl
@[simp] theorem State.answer_backing (r : Response) (s : State) :
    (s.answer r).backing = s.backing := rfl
@[simp] theorem State.answer_fits (r : Response) (s : State) (n : Nat) :
    (s.answer r).fits n = s.fits n := rfl
@[simp] theorem State.moveTo_cursor (c : BitVec 32) (s : State) :
    (s.moveTo c).cursor = c := rfl
@[simp] theorem State.moveTo_len (c : BitVec 32) (s : State) :
    (s.moveTo c).len = s.len := rfl
@[simp] theorem State.moveTo_fpw (c : BitVec 32) (s : State) :
    (s.moveTo c).fpw = s.fpw := rfl
@[simp] theorem State.moveTo_mem (c : BitVec 32) (s : State) :
    (s.moveTo c).mem = s.mem := rfl
@[simp] theorem State.moveTo_pc (c : BitVec 32) (s : State) :
    (s.moveTo c).pc = s.pc := rfl
@[simp] theorem State.moveTo_commands (c : BitVec 32) (s : State) :
    (s.moveTo c).commands = s.commands := rfl
@[simp] theorem State.moveTo_responses (c : BitVec 32) (s : State) :
    (s.moveTo c).responses = s.responses := rfl
@[simp] theorem State.moveTo_draws (c : BitVec 32) (s : State) :
    (s.moveTo c).draws = s.draws := rfl
@[simp] theorem State.moveTo_backing (c : BitVec 32) (s : State) :
    (s.moveTo c).backing = s.backing := rfl
@[simp] theorem State.store_cursor (m : Memory) (s : State) :
    (s.store m).cursor = s.cursor := rfl
@[simp] theorem State.store_len (m : Memory) (s : State) :
    (s.store m).len = s.len := rfl
@[simp] theorem State.store_fpw (m : Memory) (s : State) :
    (s.store m).fpw = s.fpw := rfl
@[simp] theorem State.store_mem (m : Memory) (s : State) :
    (s.store m).mem = m := rfl
@[simp] theorem State.store_pc (m : Memory) (s : State) :
    (s.store m).pc = s.pc := rfl
@[simp] theorem State.store_commands (m : Memory) (s : State) :
    (s.store m).commands = s.commands := rfl
@[simp] theorem State.store_responses (m : Memory) (s : State) :
    (s.store m).responses = s.responses := rfl
@[simp] theorem State.store_draws (m : Memory) (s : State) :
    (s.store m).draws = s.draws := rfl
@[simp] theorem State.store_backing (m : Memory) (s : State) :
    (s.store m).backing = s.backing := rfl
@[simp] theorem State.store_fits (m : Memory) (s : State) (n : Nat) :
    (s.store m).fits n = s.fits n := rfl
@[simp] theorem State.drawn_cursor (k : Nat) (s : State) :
    (s.drawn k).cursor = s.cursor := rfl
@[simp] theorem State.drawn_len (k : Nat) (s : State) :
    (s.drawn k).len = s.len := rfl
@[simp] theorem State.drawn_fpw (k : Nat) (s : State) :
    (s.drawn k).fpw = s.fpw := rfl
@[simp] theorem State.drawn_mem (k : Nat) (s : State) :
    (s.drawn k).mem = s.mem := rfl
@[simp] theorem State.drawn_pc (k : Nat) (s : State) :
    (s.drawn k).pc = s.pc := rfl
@[simp] theorem State.drawn_commands (k : Nat) (s : State) :
    (s.drawn k).commands = s.commands := rfl
@[simp] theorem State.drawn_responses (k : Nat) (s : State) :
    (s.drawn k).responses = s.responses := rfl
@[simp] theorem State.drawn_draws (k : Nat) (s : State) :
    (s.drawn k).draws = k := rfl
@[simp] theorem State.drawn_backing (k : Nat) (s : State) :
    (s.drawn k).backing = s.backing := rfl
@[simp] theorem State.drawn_fits (k : Nat) (s : State) (n : Nat) :
    (s.drawn k).fits n = s.fits n := rfl
@[simp] theorem State.rebuild_cursor (l : BitVec 32) (f : BitVec 4) (m : Memory) (s : State) :
    (s.rebuild l f m).cursor = f.setWidth 32 := rfl
@[simp] theorem State.rebuild_len (l : BitVec 32) (f : BitVec 4) (m : Memory) (s : State) :
    (s.rebuild l f m).len = l := rfl
@[simp] theorem State.rebuild_fpw (l : BitVec 32) (f : BitVec 4) (m : Memory) (s : State) :
    (s.rebuild l f m).fpw = f := rfl
@[simp] theorem State.rebuild_mem (l : BitVec 32) (f : BitVec 4) (m : Memory) (s : State) :
    (s.rebuild l f m).mem = m := rfl
@[simp] theorem State.rebuild_pc (l : BitVec 32) (f : BitVec 4) (m : Memory) (s : State) :
    (s.rebuild l f m).pc = s.pc := rfl
@[simp] theorem State.rebuild_commands (l : BitVec 32) (f : BitVec 4) (m : Memory) (s : State) :
    (s.rebuild l f m).commands = s.commands := rfl
@[simp] theorem State.rebuild_responses (l : BitVec 32) (f : BitVec 4) (m : Memory) (s : State) :
    (s.rebuild l f m).responses = s.responses := rfl
@[simp] theorem State.rebuild_draws (l : BitVec 32) (f : BitVec 4) (m : Memory) (s : State) :
    (s.rebuild l f m).draws = s.draws := rfl
@[simp] theorem State.rebuild_backing (l : BitVec 32) (f : BitVec 4) (m : Memory) (s : State) :
    (s.rebuild l f m).backing = l.toNat + f.toNat := rfl
@[simp] theorem State.dismiss_cursor (c : Cause) (s : State) :
    (s.dismiss c).cursor = s.cursor := rfl
@[simp] theorem State.dismiss_len (c : Cause) (s : State) :
    (s.dismiss c).len = s.len := rfl
@[simp] theorem State.dismiss_fpw (c : Cause) (s : State) :
    (s.dismiss c).fpw = s.fpw := rfl
@[simp] theorem State.dismiss_mem (c : Cause) (s : State) :
    (s.dismiss c).mem = s.mem := rfl
@[simp] theorem State.dismiss_pc (c : Cause) (s : State) :
    (s.dismiss c).pc = s.pc := rfl
@[simp] theorem State.dismiss_commands (c : Cause) (s : State) :
    (s.dismiss c).commands = s.commands.eraseIdx s.pc := rfl
@[simp] theorem State.dismiss_responses (c : Cause) (s : State) :
    (s.dismiss c).responses = s.responses ++ [refusalResponse c] := rfl
@[simp] theorem State.dismiss_draws (c : Cause) (s : State) :
    (s.dismiss c).draws = s.draws := rfl
@[simp] theorem State.dismiss_backing (c : Cause) (s : State) :
    (s.dismiss c).backing = s.backing := rfl
@[simp] theorem State.dismiss_fits (c : Cause) (s : State) (n : Nat) :
    (s.dismiss c).fits n = s.fits n := rfl
@[simp] theorem State.withFetchWord_cursor (s : State) (b w : Nat) :
    (s.withFetchWord b w).cursor = s.cursor := rfl
@[simp] theorem State.withFetchWord_len (s : State) (b w : Nat) :
    (s.withFetchWord b w).len = s.len := rfl
@[simp] theorem State.withFetchWord_fpw (s : State) (b w : Nat) :
    (s.withFetchWord b w).fpw = s.fpw := rfl
@[simp] theorem State.withFetchWord_mem (s : State) (b w : Nat) :
    (s.withFetchWord b w).mem = s.mem := rfl
@[simp] theorem State.withFetchWord_pc (s : State) (b w : Nat) :
    (s.withFetchWord b w).pc = s.pc := rfl
@[simp] theorem State.withFetchWord_commands (s : State) (b w : Nat) :
    (s.withFetchWord b w).commands = placePacket s.pc (packetOfBits b w) s.commands := rfl
@[simp] theorem State.withFetchWord_responses (s : State) (b w : Nat) :
    (s.withFetchWord b w).responses = s.responses := rfl
@[simp] theorem State.withFetchWord_draws (s : State) (b w : Nat) :
    (s.withFetchWord b w).draws = s.draws := rfl
@[simp] theorem State.withFetchWord_backing (s : State) (b w : Nat) :
    (s.withFetchWord b w).backing = s.backing := rfl
@[simp] theorem State.withFetchWord_fits (s : State) (b w : Nat) (n : Nat) :
    (s.withFetchWord b w).fits n = s.fits n := rfl

/-- `Fits` as the inequalities of 20_memory.md R56. -/
theorem State.fits_iff (n : Nat) (s : State) :
    s.fits n = true ↔ s.fpw.toNat ≤ s.cursor.toNat ∧ s.cursor.toNat + n ≤ s.backing := by
  simp [State.fits]

/-- `MEM_BYTES` is between 8 and 2^31 (00_scope.md R9). -/
theorem memBytes_bounds : 8 ≤ Config.memBytes ∧ Config.memBytes ≤ 2 ^ 31 := by
  have := Config.memExtra.isLt
  unfold Config.memBytes
  omega

end Sys2Proof.Machine
end

