-- ==== Sys2Proof/Laws/Ops.lean ====
section
/-! SUPPORT. What each shared operation can do, said once. -/

namespace Sys2Proof.Machine

theorem legal_iff (s : State) :
    s.legal = true ↔ fpwLegal s.fpw = true ∧ s.backing ≤ Config.memBytes := by
  simp [State.legal]

theorem memRead_eq {s : State} {a n : Nat} (h : a + n ≤ Config.memBytes) :
    s.memRead a n = some (s.mem.readBytes a n) := if_pos h

theorem memWrite_eq {s : State} {a : Nat} {bs : List Byte} (h : a + bs.length ≤ Config.memBytes) :
    s.memWrite a bs = some (s.mem.writeBytes a bs) := if_pos h

theorem memRead_some {s : State} {a n : Nat} {bs : List Byte} (h : s.memRead a n = some bs) :
    a + n ≤ Config.memBytes ∧ bs = s.mem.readBytes a n := by
  unfold State.memRead at h
  split at h
  · exact ⟨‹_›, (Option.some.inj h).symm⟩
  · cases h

theorem memWrite_some {s : State} {a : Nat} {bs : List Byte} {m : Memory}
    (h : s.memWrite a bs = some m) :
    a + bs.length ≤ Config.memBytes ∧ m = s.mem.writeBytes a bs := by
  unfold State.memWrite at h
  split at h
  · exact ⟨‹_›, (Option.some.inj h).symm⟩
  · cases h

@[simp] theorem orFault_some {α : Type} (x : α) (k : α → Result) : orFault (some x) k = k x := rfl

theorem orFault_next {α : Type} {r : Option α} {k : α → Result} {t : State}
    (h : orFault r k = .next t) : ∃ x, r = some x ∧ k x = .next t := by
  cases r with
  | none => cases h
  | some x => exact ⟨x, rfl, h⟩

theorem complete_next {r : Response} {s t : State} (h : s.complete r = .next t) :
    t = s.answer r := by
  cases h; rfl

/-- The pack template does one of two things: it stores the bytes at the cursor and moves it past
them, or, where they do not fit, it does nothing (20_memory.md R57). -/
theorem packWith_next {n : Nat} {bytes : Nat → List Byte × Nat} {s t : State}
    (h : s.packWith n bytes = .next t) :
    (s.fits n = true ∧
      s.cursor.toNat + (bytes s.draws).1.length ≤ Config.memBytes ∧
      t = ((((s.store (s.mem.writeBytes s.cursor.toNat (bytes s.draws).1)).drawn
        (bytes s.draws).2).moveTo (s.cursor + BitVec.ofNat 32 n)).answer .done)) ∨
    (s.fits n = false ∧ t = s.answer .done) := by
  unfold State.packWith at h
  split at h
  · obtain ⟨m, hm, ht⟩ := orFault_next h
    obtain ⟨hle, rfl⟩ := memWrite_some hm
    exact .inl ⟨‹_›, hle, (Host.Outcome.next.inj ht).symm⟩
  · exact .inr ⟨by simpa using ‹¬ s.fits n = true›, complete_next h⟩

/-- A pack that fits, in a legal state, completes (20_memory.md R57). -/
theorem packWith_fits {n : Nat} {bytes : Nat → List Byte × Nat} {s : State}
    (hl : s.legal = true) (hf : s.fits n = true) (hn : (bytes s.draws).1.length = n) :
    s.packWith n bytes = .next
      ((((s.store (s.mem.writeBytes s.cursor.toNat (bytes s.draws).1)).drawn
        (bytes s.draws).2).moveTo (s.cursor + BitVec.ofNat 32 n)).answer .done) := by
  have h1 := ((State.fits_iff n s).1 hf).2
  have h2 := ((legal_iff s).1 hl).2
  simp only [State.packWith, hf, if_true]
  rw [memWrite_eq (by omega), orFault_some]

/-- A pack that does not fit completes and changes nothing (20_memory.md R57). -/
theorem packWith_dropped {n : Nat} {bytes : Nat → List Byte × Nat} {s : State}
    (hf : s.fits n = false) : s.packWith n bytes = .next (s.answer .done) := by
  simp [State.packWith, hf, State.complete]

/-- The unpack template does one of two things: it answers what the bytes at the cursor decode to
and moves the cursor past them, or it answers the zero value (20_memory.md R58). -/
theorem unpackWith_next {n : Nat} {dec : List Byte → Nat → List Op × Nat} {zero : List Op}
    {s t : State} (h : s.unpackWith n dec zero = .next t) :
    (s.fits n = true ∧
      t = (((s.drawn (dec (s.mem.readBytes s.cursor.toNat n) s.draws).2).moveTo
        (s.cursor + BitVec.ofNat 32 n)).answer
          (.words (dec (s.mem.readBytes s.cursor.toNat n) s.draws).1))) ∨
    (s.fits n = false ∧ t = s.answer (.words zero)) := by
  unfold State.unpackWith at h
  split at h
  · obtain ⟨bs, hb, ht⟩ := orFault_next h
    obtain ⟨-, rfl⟩ := memRead_some hb
    exact .inl ⟨‹_›, (Host.Outcome.next.inj ht).symm⟩
  · exact .inr ⟨by simpa using ‹¬ s.fits n = true›, complete_next h⟩

/-- An unpack that fits, in a legal state, completes (20_memory.md R58). -/
theorem unpackWith_fits {n : Nat} {dec : List Byte → Nat → List Op × Nat} {zero : List Op}
    {s : State} (hl : s.legal = true) (hf : s.fits n = true) :
    s.unpackWith n dec zero = .next
      (((s.drawn (dec (s.mem.readBytes s.cursor.toNat n) s.draws).2).moveTo
        (s.cursor + BitVec.ofNat 32 n)).answer
          (.words (dec (s.mem.readBytes s.cursor.toNat n) s.draws).1)) := by
  have h1 := ((State.fits_iff n s).1 hf).2
  have h2 := ((legal_iff s).1 hl).2
  simp only [State.unpackWith, hf, if_true]
  rw [memRead_eq (by omega), orFault_some]

/-- An under-read completes with the zero value (20_memory.md R58). -/
theorem unpackWith_under {n : Nat} {dec : List Byte → Nat → List Op × Nat} {zero : List Op}
    {s : State} (hf : s.fits n = false) :
    s.unpackWith n dec zero = .next (s.answer (.words zero)) := by
  simp [State.unpackWith, hf, State.complete]

/-! ### Draws and settled values -/

@[simp] theorem drawBytes_length (k n : Nat) : (drawBytes k n).length = n := by
  induction n generalizing k with
  | zero => rfl
  | succ n ih => simp [drawBytes, ih]

@[simp] theorem settleCode_some (n q k : Nat) : settleCode n (some q) k = (q, k) := rfl

@[simp] theorem settleCode_none (n k : Nat) : settleCode n none k = (drawCode n k, k + 1) := rfl

@[simp] theorem settleCodes_widths (cs : List (Nat × Option Nat)) (k : Nat) :
    (settleCodes cs k).1.map Prod.fst = cs.map Prod.fst := by
  induction cs generalizing k with
  | nil => rfl
  | cons c cs ih => simp [settleCodes, ih]

@[simp] theorem settleValues_length (Q : QNum) (fmt : Fmt) (vs : List (Option Fl)) (k : Nat) :
    (settleValues Q fmt vs k).1.length = vs.length := by
  induction vs generalizing k with
  | nil => rfl
  | cons v vs ih => simp [settleValues, ih]

/-- A code of the rules is below `2^N`, in any arithmetic (43_quantization.md R174). -/
theorem qenc_lt {Q : QNum} {fmt : Fmt} {n : Nat} {v lo hi : Fl} {q : Nat}
    (h : Q.qenc fmt n v lo hi = some q) : q < 2 ^ n := by
  unfold QNum.qenc at h
  split at h
  · simp only [Option.map_eq_some_iff] at h
    obtain ⟨z, -, rfl⟩ := h
    have hp : (0 : Int) < 2 ^ n := by positivity
    have h1 := Int.emod_nonneg z hp.ne'
    have h2 := Int.emod_lt_of_pos z hp
    zify
    rw [Int.toNat_of_nonneg h1]
    exact h2
  · cases h

/-- A drawn code is below `2^N` (00_scope.md R17). -/
theorem drawCode_lt (n k : Nat) : drawCode n k < 2 ^ n := Nat.mod_lt _ (by positivity)

/-- A settled code is below `2^N`, in any arithmetic. -/
theorem settleCode_lt {Q : QNum} {fmt : Fmt} {n : Nat} {v lo hi : Fl} (k : Nat) :
    (settleCode n (Q.qenc fmt n v lo hi) k).1 < 2 ^ n := by
  cases h : Q.qenc fmt n v lo hi with
  | none => exact drawCode_lt n k
  | some q => exact qenc_lt h

/-! ### The machine's own arithmetic, field by field (00_scope.md R16) -/

@[simp] theorem qnum_fadd : Config.qnum.fadd = fadd := rfl
@[simp] theorem qnum_fsub : Config.qnum.fsub = fsub := rfl
@[simp] theorem qnum_fmul : Config.qnum.fmul = fmul := rfl
@[simp] theorem qnum_fdiv : Config.qnum.fdiv = fdiv := rfl
@[simp] theorem qnum_fsqrt : Config.qnum.fsqrt = fsqrt := rfl
@[simp] theorem qnum_cvt : Config.qnum.cvt = cvt := rfl
@[simp] theorem qnum_const : Config.qnum.const = constant := rfl
@[simp] theorem qnum_trunc : Config.qnum.trunc = Fl.trunc := rfl
@[simp] theorem qnum_bits : Config.qnum.bits = Fl.toBits := rfl
@[simp] theorem qnum_val : Config.qnum.val = Fl.ofBits := rfl

/-- The code of a field, over the reference primitives (43_quantization.md R174). -/
theorem codeOf_eq (fmt : Fmt) (n : Nat) (a : QArg) :
    codeOf fmt n a =
      if (Fl.ofBits fmt a.max).gt (Fl.ofBits fmt a.min) then
        (fmul fmt (fdiv fmt (fsub fmt (Fl.ofBits fmt a.value) (Fl.ofBits fmt a.min))
            (fsub fmt (Fl.ofBits fmt a.max) (Fl.ofBits fmt a.min)))
          (constant fmt (2 ^ n - 1) 1)).trunc.map fun z => (z % 2 ^ n).toNat
      else none := rfl

/-- The value of a field's code, over the reference primitives (43_quantization.md R175). -/
theorem valueOf_eq (fmt : Fmt) (n q : Nat) (r : QRange) :
    valueOf fmt n q r =
      if (Fl.ofBits fmt r.max).gt (Fl.ofBits fmt r.min) then
        some (fadd fmt (fmul fmt (fdiv fmt (cvt fmt q) (constant fmt (2 ^ n - 1) 1))
            (fsub fmt (Fl.ofBits fmt r.max) (Fl.ofBits fmt r.min))) (Fl.ofBits fmt r.min))
      else none := rfl

/-- An answered state differs by the response and `pc` only, so two answers of one state with one
response are equal. -/
theorem answer_eq (s : State) (r : Response) :
    s.answer r = { s with pc := s.pc + 1, responses := s.responses ++ [r] } := rfl

end Sys2Proof.Machine
end

