-- ==== Sys2Proof/Laws/PerInstr.lean ====
section
/-! SUPPORT. One lemma per constructor of `Instr`, about the command as syntax: its opcode has a row of the
opcode map, and its packet has the row's shape and the row's command (30_encoding.md R82, R86,
R87). -/

namespace Sys2Proof

/-- The command's own row of the opcode map: it has the command's opcode, its format admits the
command's `MOD` bits, operand words and payload, and it makes the command from them. -/
def Laws.EncodeRow.Statement (i : Instr) : Prop :=
  ∃ r, rowOf i.opcode = some r ∧ i.modBits &&& r.format.modZero = 0 ∧
    i.operands.length = r.format.operands ∧ (r.format.hasData = true ∨ i.payload = []) ∧
    r.build i.modBits (fun k => i.operands.getD k 0) i.payload = i

namespace Laws.EncodeRow

/-- A command whose `MOD` is 0 meets the statement by its row alone. -/
theorem of_row {i : Instr} {r : OpcodeRow} (hr : rowOf i.opcode = some r) (hm : i.modBits = 0)
    (hl : i.operands.length = r.format.operands)
    (hd : r.format.hasData = true ∨ i.payload = [])
    (hb : r.build i.modBits (fun k => i.operands.getD k 0) i.payload = i) : Statement i :=
  ⟨r, hr, by simp [hm], hl, hd, hb⟩

theorem construct (fpwi : BitVec 4) (op0 : Op) :
    Statement (.construct fpwi op0) := by
  refine ⟨_, rfl, ?_, rfl, .inr rfl, ?_⟩
  · show (fpwi.setWidth 8 &&& 0xF0 : BitVec 8) = 0
    revert fpwi; decide
  · have h : ((fpwi.setWidth 8 : BitVec 8).extractLsb' 0 4) = fpwi := by revert fpwi; decide
    simp only [Instr.modBits]
    rw [h]
    rfl
theorem adopt (fpwi : BitVec 4) (cf : Bool) (sh : Bool) (op0 : Op) (data : List Byte) :
    Statement (.adopt fpwi cf sh op0 data) := by
  refine ⟨_, rfl, ?_, rfl, .inl rfl, ?_⟩
  · show (0#2 ++ BitVec.ofBool sh ++ BitVec.ofBool cf ++ fpwi) &&& 0xC0 = 0#8
    revert fpwi cf sh; decide
  · have h1 : (0#2 ++ BitVec.ofBool sh ++ BitVec.ofBool cf ++ fpwi).extractLsb' 0 4 = fpwi := by
      revert fpwi cf sh; decide
    have h2 : (0#2 ++ BitVec.ofBool sh ++ BitVec.ofBool cf ++ fpwi).getLsbD 4 = cf := by
      revert fpwi cf sh; decide
    have h3 : (0#2 ++ BitVec.ofBool sh ++ BitVec.ofBool cf ++ fpwi).getLsbD 5 = sh := by
      revert fpwi cf sh; decide
    show Instr.adopt _ _ _ _ _ = _
    simp only [Instr.modBits]
    rw [h1, h2, h3]
    rfl
theorem seekStart :
    Statement (.seekStart) :=
  of_row rfl rfl rfl (.inr rfl) rfl
theorem seekTo (op0 : Op) :
    Statement (.seekTo op0) :=
  of_row rfl rfl rfl (.inr rfl) rfl
theorem advance (op0 : Op) :
    Statement (.advance op0) :=
  of_row rfl rfl rfl (.inr rfl) rfl
theorem reverse (op0 : Op) :
    Statement (.reverse op0) :=
  of_row rfl rfl rfl (.inr rfl) rfl
theorem rdcsr (csr : BitVec 2) :
    Statement (.rdcsr csr) := by
  refine ⟨_, rfl, ?_, rfl, .inr rfl, ?_⟩
  · show (csr.setWidth 8 &&& 0xFC : BitVec 8) = 0
    revert csr; decide
  · have h : ((csr.setWidth 8 : BitVec 8).extractLsb' 0 2) = csr := by revert csr; decide
    simp only [Instr.modBits]
    rw [h]
theorem dump :
    Statement (.dump) :=
  of_row rfl rfl rfl (.inr rfl) rfl
theorem fpGen :
    Statement (.fpGen) :=
  of_row rfl rfl rfl (.inr rfl) rfl
theorem fpGet :
    Statement (.fpGet) :=
  of_row rfl rfl rfl (.inr rfl) rfl
theorem fpChk :
    Statement (.fpChk) :=
  of_row rfl rfl rfl (.inr rfl) rfl
theorem pkU8 (op0 : Op) :
    Statement (.pkU8 op0) :=
  of_row rfl rfl rfl (.inr rfl) rfl
theorem pkU16 (op0 : Op) :
    Statement (.pkU16 op0) :=
  of_row rfl rfl rfl (.inr rfl) rfl
theorem pkU32 (op0 : Op) :
    Statement (.pkU32 op0) :=
  of_row rfl rfl rfl (.inr rfl) rfl
theorem pkU64 (op0 : Op) :
    Statement (.pkU64 op0) :=
  of_row rfl rfl rfl (.inr rfl) rfl
theorem pkI8 (op0 : Op) :
    Statement (.pkI8 op0) :=
  of_row rfl rfl rfl (.inr rfl) rfl
theorem pkI16 (op0 : Op) :
    Statement (.pkI16 op0) :=
  of_row rfl rfl rfl (.inr rfl) rfl
theorem pkI32 (op0 : Op) :
    Statement (.pkI32 op0) :=
  of_row rfl rfl rfl (.inr rfl) rfl
theorem pkI64 (op0 : Op) :
    Statement (.pkI64 op0) :=
  of_row rfl rfl rfl (.inr rfl) rfl
theorem pkF32 (op0 : Op) :
    Statement (.pkF32 op0) :=
  of_row rfl rfl rfl (.inr rfl) rfl
theorem pkF64 (op0 : Op) :
    Statement (.pkF64 op0) :=
  of_row rfl rfl rfl (.inr rfl) rfl
theorem pkBlob (op0 : Op) (data : List Byte) :
    Statement (.pkBlob op0 data) :=
  of_row rfl rfl rfl (.inl rfl) rfl
theorem upU8 :
    Statement (.upU8) :=
  of_row rfl rfl rfl (.inr rfl) rfl
theorem upU16 :
    Statement (.upU16) :=
  of_row rfl rfl rfl (.inr rfl) rfl
theorem upU32 :
    Statement (.upU32) :=
  of_row rfl rfl rfl (.inr rfl) rfl
theorem upU64 :
    Statement (.upU64) :=
  of_row rfl rfl rfl (.inr rfl) rfl
theorem upI8 :
    Statement (.upI8) :=
  of_row rfl rfl rfl (.inr rfl) rfl
theorem upI16 :
    Statement (.upI16) :=
  of_row rfl rfl rfl (.inr rfl) rfl
theorem upI32 :
    Statement (.upI32) :=
  of_row rfl rfl rfl (.inr rfl) rfl
theorem upI64 :
    Statement (.upI64) :=
  of_row rfl rfl rfl (.inr rfl) rfl
theorem upF32 :
    Statement (.upF32) :=
  of_row rfl rfl rfl (.inr rfl) rfl
theorem upF64 :
    Statement (.upF64) :=
  of_row rfl rfl rfl (.inr rfl) rfl
theorem upBlob :
    Statement (.upBlob) :=
  of_row rfl rfl rfl (.inr rfl) rfl
theorem qpk8S (a : QArg) :
    Statement (.qpk8S a) :=
  of_row rfl rfl rfl (.inr rfl) rfl
theorem qpk16S (a : QArg) :
    Statement (.qpk16S a) :=
  of_row rfl rfl rfl (.inr rfl) rfl
theorem qpk24S (a : QArg) :
    Statement (.qpk24S a) :=
  of_row rfl rfl rfl (.inr rfl) rfl
theorem qpk32S (a : QArg) :
    Statement (.qpk32S a) :=
  of_row rfl rfl rfl (.inr rfl) rfl
theorem qup8S (a : QRange) :
    Statement (.qup8S a) :=
  of_row rfl rfl rfl (.inr rfl) rfl
theorem qup16S (a : QRange) :
    Statement (.qup16S a) :=
  of_row rfl rfl rfl (.inr rfl) rfl
theorem qup24S (a : QRange) :
    Statement (.qup24S a) :=
  of_row rfl rfl rfl (.inr rfl) rfl
theorem qup32S (a : QRange) :
    Statement (.qup32S a) :=
  of_row rfl rfl rfl (.inr rfl) rfl
theorem qpk8D (a : QArg) :
    Statement (.qpk8D a) :=
  of_row rfl rfl rfl (.inr rfl) rfl
theorem qpk16D (a : QArg) :
    Statement (.qpk16D a) :=
  of_row rfl rfl rfl (.inr rfl) rfl
theorem qpk24D (a : QArg) :
    Statement (.qpk24D a) :=
  of_row rfl rfl rfl (.inr rfl) rfl
theorem qpk32D (a : QArg) :
    Statement (.qpk32D a) :=
  of_row rfl rfl rfl (.inr rfl) rfl
theorem qpk40D (a : QArg) :
    Statement (.qpk40D a) :=
  of_row rfl rfl rfl (.inr rfl) rfl
theorem qpk48D (a : QArg) :
    Statement (.qpk48D a) :=
  of_row rfl rfl rfl (.inr rfl) rfl
theorem qpk56D (a : QArg) :
    Statement (.qpk56D a) :=
  of_row rfl rfl rfl (.inr rfl) rfl
theorem qup8D (a : QRange) :
    Statement (.qup8D a) :=
  of_row rfl rfl rfl (.inr rfl) rfl
theorem qup16D (a : QRange) :
    Statement (.qup16D a) :=
  of_row rfl rfl rfl (.inr rfl) rfl
theorem qup24D (a : QRange) :
    Statement (.qup24D a) :=
  of_row rfl rfl rfl (.inr rfl) rfl
theorem qup32D (a : QRange) :
    Statement (.qup32D a) :=
  of_row rfl rfl rfl (.inr rfl) rfl
theorem qup40D (a : QRange) :
    Statement (.qup40D a) :=
  of_row rfl rfl rfl (.inr rfl) rfl
theorem qup48D (a : QRange) :
    Statement (.qup48D a) :=
  of_row rfl rfl rfl (.inr rfl) rfl
theorem qup56D (a : QRange) :
    Statement (.qup56D a) :=
  of_row rfl rfl rfl (.inr rfl) rfl
theorem bpk71 (a b : QArg) :
    Statement (.bpk71 a b) :=
  of_row rfl rfl rfl (.inr rfl) rfl
theorem bpk62 (a b : QArg) :
    Statement (.bpk62 a b) :=
  of_row rfl rfl rfl (.inr rfl) rfl
theorem bpk44 (a b : QArg) :
    Statement (.bpk44 a b) :=
  of_row rfl rfl rfl (.inr rfl) rfl
theorem bpk655 (a b c : QArg) :
    Statement (.bpk655 a b c) :=
  of_row rfl rfl rfl (.inr rfl) rfl
theorem bpk111110 (a b c : QArg) :
    Statement (.bpk111110 a b c) :=
  of_row rfl rfl rfl (.inr rfl) rfl
theorem bpk10X4 (a b c d : QArg) :
    Statement (.bpk10X4 a b c d) :=
  of_row rfl rfl rfl (.inr rfl) rfl
theorem bpk1111108 (a b c d : QArg) :
    Statement (.bpk1111108 a b c d) :=
  of_row rfl rfl rfl (.inr rfl) rfl
theorem bup71 (a b : QRange) :
    Statement (.bup71 a b) :=
  of_row rfl rfl rfl (.inr rfl) rfl
theorem bup62 (a b : QRange) :
    Statement (.bup62 a b) :=
  of_row rfl rfl rfl (.inr rfl) rfl
theorem bup44 (a b : QRange) :
    Statement (.bup44 a b) :=
  of_row rfl rfl rfl (.inr rfl) rfl
theorem bup655 (a b c : QRange) :
    Statement (.bup655 a b c) :=
  of_row rfl rfl rfl (.inr rfl) rfl
theorem bup111110 (a b c : QRange) :
    Statement (.bup111110 a b c) :=
  of_row rfl rfl rfl (.inr rfl) rfl
theorem bup10X4 (a b c d : QRange) :
    Statement (.bup10X4 a b c d) :=
  of_row rfl rfl rfl (.inr rfl) rfl
theorem bup1111108 (a b c d : QRange) :
    Statement (.bup1111108 a b c d) :=
  of_row rfl rfl rfl (.inr rfl) rfl

end Laws.EncodeRow

end Sys2Proof
end

