-- ==== Sys2Proof/Tests/Slice0.lean ====
section
/-! SUPPORT. The model's own tests. Expected values are the spec's: its encodings (30_encoding.md), its worked
examples (40_buffer_cursor.md to 45_composite.md) and its vectors (95_test_vectors.md, V<n>). -/

namespace Sys2Proof.Tests

open Sys2Proof.Machine

/-! ### Well-formedness: an ill-formed term for each check, and a well-formed one beside it -/

theorem test_wf_construct_width : (Instr.construct 3 0).wf = false := by decide
theorem test_wf_construct_size : (Instr.construct 0 0xFFFFFFFFFFFFFFFF).wf = false := by
  have := memBytes_bounds
  simp only [Instr.wf, Bool.and_eq_false_iff, decide_eq_false_iff_not]
  exact .inr (by simp; omega)
theorem test_wf_construct_good : (Instr.construct 4 4).wf = true := by decide
theorem test_wf_adopt_width : (Instr.adopt 9 false false 0 []).wf = false := by decide
theorem test_wf_adopt_data : (Instr.adopt 0 false false 2 [0]).wf = false := by decide
theorem test_wf_adopt_size (d : List Byte) :
    (Instr.adopt 8 false false 0xFFFFFFFFFFFFFFFF d).wf = false := by
  have := memBytes_bounds
  simp only [Instr.wf, Bool.and_eq_false_iff, decide_eq_false_iff_not]
  exact .inl (.inr (by simp [adoptRegion]; omega))
theorem test_wf_adopt_short : (Instr.adopt 4 true false 2 [0xAA, 0xBB]).wf = false := by decide
theorem test_wf_adopt_good : (Instr.adopt 4 false false 2 [0xAA, 0xBB]).wf = true := by
  decide
theorem test_wf_blob_long : (Instr.pkBlob 65536 []).wf = false := by decide
theorem test_wf_blob_data : (Instr.pkBlob 2 [1]).wf = false := by decide
theorem test_wf_blob_good : (Instr.pkBlob 2 [1, 2]).wf = true := by decide

/-! ### Decoding: every row of the opcode map, its word written out (30_encoding.md R81, R86, R87) -/

/-- Whether the decoder reads a packet as a command. -/
def decodesTo (cw : BitVec 32) (op : List Op) (data : List Byte) (i : Instr) : Bool :=
  match decode ⟨cw, op, data⟩ with
  | .ok j => j == i
  | .error _ => false

/-- Whether the decoder refuses a packet with a cause. -/
def refusedWith (cw : BitVec 32) (op : List Op) (data : List Byte) (c : Cause) : Bool :=
  match decode ⟨cw, op, data⟩ with
  | .ok _ => false
  | .error d => d == c

theorem test_decode_buffer :
    (
    decodesTo 0x01000008 [1] [] (.construct 8 1)
    &&     decodesTo 0x02000014 [1] [7] (.adopt 4 true false 1 [7])
    &&     decodesTo 0x03000000 [] [] (.seekStart)
    &&     decodesTo 0x04000000 [1] [] (.seekTo 1)
    &&     decodesTo 0x05000000 [1] [] (.advance 1)
    &&     decodesTo 0x06000000 [1] [] (.reverse 1)
    &&     decodesTo 0x07000002 [] [] (.rdcsr 2)
    &&     decodesTo 0x08000000 [] [] (.dump)) = true := by
  decide

theorem test_decode_fingerprint :
    (
    decodesTo 0x10000000 [] [] (.fpGen)
    &&     decodesTo 0x11000000 [] [] (.fpGet)
    &&     decodesTo 0x12000000 [] [] (.fpChk)) = true := by
  decide

theorem test_decode_primitive_pack :
    (
    decodesTo 0x20000000 [1] [] (.pkU8 1)
    &&     decodesTo 0x21000000 [1] [] (.pkU16 1)
    &&     decodesTo 0x22000000 [1] [] (.pkU32 1)
    &&     decodesTo 0x23000000 [1] [] (.pkU64 1)
    &&     decodesTo 0x24000000 [1] [] (.pkI8 1)
    &&     decodesTo 0x25000000 [1] [] (.pkI16 1)
    &&     decodesTo 0x26000000 [1] [] (.pkI32 1)
    &&     decodesTo 0x27000000 [1] [] (.pkI64 1)
    &&     decodesTo 0x28000000 [1] [] (.pkF32 1)
    &&     decodesTo 0x29000000 [1] [] (.pkF64 1)
    &&     decodesTo 0x2A000000 [1] [7] (.pkBlob 1 [7])) = true := by
  decide

theorem test_decode_primitive_unpack :
    (
    decodesTo 0x30000000 [] [] (.upU8)
    &&     decodesTo 0x31000000 [] [] (.upU16)
    &&     decodesTo 0x32000000 [] [] (.upU32)
    &&     decodesTo 0x33000000 [] [] (.upU64)
    &&     decodesTo 0x34000000 [] [] (.upI8)
    &&     decodesTo 0x35000000 [] [] (.upI16)
    &&     decodesTo 0x36000000 [] [] (.upI32)
    &&     decodesTo 0x37000000 [] [] (.upI64)
    &&     decodesTo 0x38000000 [] [] (.upF32)
    &&     decodesTo 0x39000000 [] [] (.upF64)
    &&     decodesTo 0x3A000000 [] [] (.upBlob)) = true := by
  decide

theorem test_decode_quant_pack_S :
    (
    decodesTo 0x41000000 [1, 2, 3] [] (.qpk8S ⟨1, 2, 3⟩)
    &&     decodesTo 0x42000000 [1, 2, 3] [] (.qpk16S ⟨1, 2, 3⟩)
    &&     decodesTo 0x43000000 [1, 2, 3] [] (.qpk24S ⟨1, 2, 3⟩)
    &&     decodesTo 0x44000000 [1, 2, 3] [] (.qpk32S ⟨1, 2, 3⟩)) = true := by
  decide

theorem test_decode_quant_unpack_S :
    (
    decodesTo 0x51000000 [1, 2] [] (.qup8S ⟨1, 2⟩)
    &&     decodesTo 0x52000000 [1, 2] [] (.qup16S ⟨1, 2⟩)
    &&     decodesTo 0x53000000 [1, 2] [] (.qup24S ⟨1, 2⟩)
    &&     decodesTo 0x54000000 [1, 2] [] (.qup32S ⟨1, 2⟩)) = true := by
  decide

theorem test_decode_quant_pack_D :
    (
    decodesTo 0x61000000 [1, 2, 3] [] (.qpk8D ⟨1, 2, 3⟩)
    &&     decodesTo 0x62000000 [1, 2, 3] [] (.qpk16D ⟨1, 2, 3⟩)
    &&     decodesTo 0x63000000 [1, 2, 3] [] (.qpk24D ⟨1, 2, 3⟩)
    &&     decodesTo 0x64000000 [1, 2, 3] [] (.qpk32D ⟨1, 2, 3⟩)
    &&     decodesTo 0x65000000 [1, 2, 3] [] (.qpk40D ⟨1, 2, 3⟩)
    &&     decodesTo 0x66000000 [1, 2, 3] [] (.qpk48D ⟨1, 2, 3⟩)
    &&     decodesTo 0x67000000 [1, 2, 3] [] (.qpk56D ⟨1, 2, 3⟩)) = true := by
  decide

theorem test_decode_quant_unpack_D :
    (
    decodesTo 0x71000000 [1, 2] [] (.qup8D ⟨1, 2⟩)
    &&     decodesTo 0x72000000 [1, 2] [] (.qup16D ⟨1, 2⟩)
    &&     decodesTo 0x73000000 [1, 2] [] (.qup24D ⟨1, 2⟩)
    &&     decodesTo 0x74000000 [1, 2] [] (.qup32D ⟨1, 2⟩)
    &&     decodesTo 0x75000000 [1, 2] [] (.qup40D ⟨1, 2⟩)
    &&     decodesTo 0x76000000 [1, 2] [] (.qup48D ⟨1, 2⟩)
    &&     decodesTo 0x77000000 [1, 2] [] (.qup56D ⟨1, 2⟩)) = true := by
  decide

theorem test_decode_bit_pack :
    (
    decodesTo 0x80000000 [1, 2, 3, 4, 5, 6] [] (.bpk71 ⟨1, 2, 3⟩ ⟨4, 5, 6⟩)
    &&     decodesTo 0x81000000 [1, 2, 3, 4, 5, 6] [] (.bpk62 ⟨1, 2, 3⟩ ⟨4, 5, 6⟩)
    &&     decodesTo 0x82000000 [1, 2, 3, 4, 5, 6] [] (.bpk44 ⟨1, 2, 3⟩ ⟨4, 5, 6⟩)
    &&     decodesTo 0x83000000 [1, 2, 3, 4, 5, 6, 7, 8, 9] [] (.bpk655 ⟨1, 2, 3⟩ ⟨4, 5, 6⟩ ⟨7, 8, 9⟩)
    &&     decodesTo 0x84000000 [1, 2, 3, 4, 5, 6, 7, 8, 9] [] (.bpk111110 ⟨1, 2, 3⟩ ⟨4, 5, 6⟩ ⟨7, 8, 9⟩)
    &&     decodesTo 0x85000000 [1, 2, 3, 4, 5, 6, 7, 8, 9, 10, 11, 12] [] (.bpk10X4 ⟨1, 2, 3⟩ ⟨4, 5, 6⟩ ⟨7, 8, 9⟩ ⟨10, 11, 12⟩)
    &&     decodesTo 0x86000000 [1, 2, 3, 4, 5, 6, 7, 8, 9, 10, 11, 12] [] (.bpk1111108 ⟨1, 2, 3⟩ ⟨4, 5, 6⟩ ⟨7, 8, 9⟩ ⟨10, 11, 12⟩)) = true := by
  decide

theorem test_decode_bit_unpack :
    (
    decodesTo 0x90000000 [1, 2, 3, 4] [] (.bup71 ⟨1, 2⟩ ⟨3, 4⟩)
    &&     decodesTo 0x91000000 [1, 2, 3, 4] [] (.bup62 ⟨1, 2⟩ ⟨3, 4⟩)
    &&     decodesTo 0x92000000 [1, 2, 3, 4] [] (.bup44 ⟨1, 2⟩ ⟨3, 4⟩)
    &&     decodesTo 0x93000000 [1, 2, 3, 4, 5, 6] [] (.bup655 ⟨1, 2⟩ ⟨3, 4⟩ ⟨5, 6⟩)
    &&     decodesTo 0x94000000 [1, 2, 3, 4, 5, 6] [] (.bup111110 ⟨1, 2⟩ ⟨3, 4⟩ ⟨5, 6⟩)
    &&     decodesTo 0x95000000 [1, 2, 3, 4, 5, 6, 7, 8] [] (.bup10X4 ⟨1, 2⟩ ⟨3, 4⟩ ⟨5, 6⟩ ⟨7, 8⟩)
    &&     decodesTo 0x96000000 [1, 2, 3, 4, 5, 6, 7, 8] [] (.bup1111108 ⟨1, 2⟩ ⟨3, 4⟩ ⟨5, 6⟩ ⟨7, 8⟩)) = true := by
  decide

theorem test_decode_adopt_flags :
    (decodesTo 0x02000012 [0] [] (.adopt 2 true false 0 [])
    && decodesTo 0x02000022 [0] [] (.adopt 2 false true 0 [])
    && decodesTo 0x02000032 [0] [] (.adopt 2 true true 0 [])
    && decodesTo 0x02000002 [0] [] (.adopt 2 false false 0 [])) = true := by
  decide

/-- V18, the refusals of the decoder. -/
theorem test_decode_refusals :
    (refusedWith 0x00000000 [] [] .illegalOpcode
    && refusedWith 0x45000000 [1, 2, 3] [] .illegalOpcode
    && refusedWith 0x09000000 [] [] .illegalOpcode
    && refusedWith 0xFF000000 [] [] .illegalOpcode
    && refusedWith 0x00000100 [] [] .illegalOpcode
    && refusedWith 0x20000100 [0x7F] [] .reservedBits
    && refusedWith 0x03000001 [] [] .reservedBits
    && refusedWith 0x07000004 [] [] .reservedBits
    && refusedWith 0x01000010 [8] [] .reservedBits
    && refusedWith 0x02000042 [0] [] .reservedBits
    && refusedWith 0x01000013 [8] [] .reservedBits
    && refusedWith 0x20000000 [] [] .badPacket
    && refusedWith 0x41000000 [1, 2] [] .badPacket
    && refusedWith 0x30000000 [1] [] .badPacket
    && refusedWith 0x21000000 [1] [0] .badPacket) = true := by
  decide

/-- The table's word of a row decodes to the row's command with zero operands. -/
theorem test_decodeTableWord :
    decodeTableWord 32 0x41000000 = some (.qpk8S ⟨0, 0, 0⟩)
    ∧ decodeTableWord 32 0x02000000 = some (.adopt 0 false false 0 [])
    ∧ decodeTableWord 96 0x000000000000BEEF21000000 = some (.pkU16 0xBEEF)
    ∧ decodeTableWord 32 0x40000000 = none := by
  decide

/-! ### One command on a small buffer -/

/-- A buffer with these bytes, prefix first, and the cursor at `c`. -/
def buf (fpw : BitVec 4) (c : Nat) (bytes : List Byte) : State :=
  { State.reset with
    cursor := BitVec.ofNat 32 c
    len := BitVec.ofNat 32 (bytes.length - fpw.toNat)
    fpw := fpw
    mem := Memory.writeBytes [] 0 bytes }

/-- The state a completed command leaves. -/
def after (r : Result) : Option State :=
  match r with
  | .next t => some t
  | _ => none

/-- The cause a command is refused with. -/
def causeOf (r : Result) : Option Cause :=
  match r with
  | .refused (.packet c) => some c
  | _ => none

/-- Cursor, byte image and result words after one command. -/
def seen (i : Instr) (s : State) : Option (Nat × List Byte × List Op) :=
  (after (exec i s)).map fun t => (t.cursor.toNat, t.image, newWords s t)

/-- Cursor and draws taken after one command. -/
def shape (i : Instr) (s : State) : Option (Nat × Nat) :=
  (after (exec i s)).map fun t => (t.cursor.toNat, t.draws)

/-- R110 -/
theorem test_construct :
    (after (exec (.construct 2 6) (buf 0 0 [1, 2, 3]))).map
      (fun t => (t.len, t.fpw, t.cursor, t.image, t.pc)) = some (6, 2, 2, [0, 0, 0, 0, 0, 0, 0, 0], 1) := by
  decide
/-- V18 -/
theorem test_construct_illegal_width :
    causeOf (exec (.construct 3 16) State.reset) = some .illegalFpw := by
  decide
/-- V8c, rows 1 and 4 -/
theorem test_adopt :
    [true, false].map (fun cf => (after (exec (.adopt 2 cf false 5 [0xAA, 0xBB, 0xCC, 0xDD, 0xEE]) State.reset)).map
      (fun t => (t.len, t.image, t.cursor)))
      = [some (3, [0xAA, 0xBB, 0xCC, 0xDD, 0xEE], 2), some (5, 0 :: 0 :: [0xAA, 0xBB, 0xCC, 0xDD, 0xEE], 2)] := by
  decide
/-- V8c, row 3: two draws for the free prefix -/
theorem test_adopt_shift :
    (after (exec (.adopt 2 false true 5 [0xAA, 0xBB, 0xCC, 0xDD, 0xEE]) State.reset)).map
      (fun t => (t.len, t.cursor, t.draws)) = some (3, 2, 2) := by
  decide
/-- R112 -/
theorem test_seekStart :
    seen .seekStart (buf 2 6 [0, 0, 0, 0, 0, 0, 0, 0]) = some (2, [0, 0, 0, 0, 0, 0, 0, 0], []) := by
  decide
/-- R113 and V8a on a payload of 6 bytes: 5 is the last index, 6 is clamped, -1 is clamped -/
theorem test_seekTo :
    [5, 6, 0xFFFFFFFFFFFFFFFF].map (fun k => (seen (.seekTo k) (buf 2 6 [0, 0, 0, 0, 0, 0, 0, 0])).map Prod.fst)
      = [some 7, some 7, some 2] := by
  decide
/-- V8b -/
theorem test_seekTo_empty :
    (seen (.seekTo 7) (buf 4 0 [0, 0, 0, 0])).map Prod.fst = some 4 := by
  decide
/-- V8a: the upper half is ignored. R114: the sum wraps -/
theorem test_advance :
    (seen (.advance 0x100000020) (buf 0 2 [])).map Prod.fst = some 34
    ∧ (seen (.advance 2) (buf 0 0xFFFFFFFF [])).map Prod.fst = some 1 := by
  decide
/-- R115 -/
theorem test_reverse :
    (seen (.reverse 3) (buf 0 2 [])).map Prod.fst = some 0xFFFFFFFF := by
  decide
/-- R116 -/
theorem test_rdcsr :
    [0, 1, 2, 3].map (fun r => (seen (.rdcsr r) (buf 2 6 [0, 0, 0, 0, 0, 0, 0, 0])).map fun x => x.2.2)
      = [some [6], some [6], some [2], some [8]] := by
  decide
/-- R117 -/
theorem test_dump :
    (after (exec .dump (buf 1 0 [0, 0xBE, 0xEF]))).map Machine.State.responses
      = some [⟨0, [3], [0, 0xBE, 0xEF]⟩] := by
  decide
/-- R132: the cursor stays, the answer is empty -/
theorem test_fpGen :
    (after (exec .fpGen (buf 2 6 [0, 0, 0, 0, 0, 0, 0, 0]))).map (fun t => (t.cursor, t.responses))
      = some (6, [⟨0, [], []⟩]) := by
  decide
/-- R133 -/
theorem test_fpGet :
    (seen .fpGet (buf 2 2 [0xAA, 0xBB, 0xCC])).map (fun x => x.2.2) = some [0xAABB] := by
  decide
/-- R134 -/
theorem test_fpChk_no_fingerprint :
    (seen .fpChk (buf 0 0 [1, 2])).map (fun x => x.2.2) = some [1] := by
  decide
/-- V14, the stand-in -/
theorem test_fpMixSim :
    fpMixSim 8 [0, 1, 2, 3, 4, 5, 6, 7, 8, 9, 0, 1, 2, 4, 8, 16, 32, 64, 128, 255, 127, 63, 31, 15, 7, 3]
      = 0x2860E21F66584E55
    ∧ (fpMixSim 1 [0x7C, 0xEA, 0, 0]).setWidth 8 = 0x96#8 := by
  decide
/-- V8 -/
theorem test_pkU8 :
    seen (.pkU8 0xFFFFFFFFFFFFFFA5) (buf 0 0 [0x00]) = some (1, [0xA5], []) := by
  decide
/-- V8 -/
theorem test_pkU16 :
    seen (.pkU16 0xBEEF) (buf 0 0 [0x00, 0x00]) = some (2, [0xBE, 0xEF], []) := by
  decide
/-- V8 -/
theorem test_pkU32 :
    seen (.pkU32 0x1020304) (buf 0 0 [0x00, 0x00, 0x00, 0x00]) = some (4, [0x01, 0x02, 0x03, 0x04], []) := by
  decide
/-- V8 -/
theorem test_pkU64 :
    seen (.pkU64 0x102030405060708) (buf 0 0 [0x00, 0x00, 0x00, 0x00, 0x00, 0x00, 0x00, 0x00]) = some (8, [0x01, 0x02, 0x03, 0x04, 0x05, 0x06, 0x07, 0x08], []) := by
  decide
/-- V8 -/
theorem test_pkI8 :
    seen (.pkI8 0xFFFFFFFFFFFFFF80) (buf 0 0 [0x00]) = some (1, [0x80], []) := by
  decide
/-- V8 -/
theorem test_pkI16 :
    seen (.pkI16 0xFFFFFFFFFFFFFFFE) (buf 0 0 [0x00, 0x00]) = some (2, [0xFF, 0xFE], []) := by
  decide
/-- V8 -/
theorem test_pkI32 :
    seen (.pkI32 0xFFFFFFFFFFFFFFFE) (buf 0 0 [0x00, 0x00, 0x00, 0x00]) = some (4, [0xFF, 0xFF, 0xFF, 0xFE], []) := by
  decide
/-- V8 -/
theorem test_pkI64 :
    seen (.pkI64 0xFFFFFFFFFFFFFFFE) (buf 0 0 [0x00, 0x00, 0x00, 0x00, 0x00, 0x00, 0x00, 0x00]) = some (8, [0xFF, 0xFF, 0xFF, 0xFF, 0xFF, 0xFF, 0xFF, 0xFE], []) := by
  decide
/-- V8 -/
theorem test_pkF32 :
    seen (.pkF32 0x7FC00001) (buf 0 0 [0x00, 0x00, 0x00, 0x00]) = some (4, [0x7F, 0xC0, 0x00, 0x01], []) := by
  decide
/-- V8 -/
theorem test_pkF64 :
    seen (.pkF64 0xC004000000000000) (buf 0 0 [0x00, 0x00, 0x00, 0x00, 0x00, 0x00, 0x00, 0x00]) = some (8, [0xC0, 0x04, 0x00, 0x00, 0x00, 0x00, 0x00, 0x00], []) := by
  decide
/-- V9, step 2 -/
theorem test_pkU16_dropped :
    seen (.pkU16 0x3344) (buf 0 2 [0x11, 0x22, 0]) = some (2, [0x11, 0x22, 0], []) := by
  decide
/-- V8a and R56: a cursor inside the prefix -/
theorem test_pkU8_in_prefix :
    seen (.pkU8 1) (buf 2 1 [0, 0, 0, 0]) = some (1, [0, 0, 0, 0], []) := by
  decide
/-- Program E, pc 6: the sum is over the integers -/
theorem test_pkU8_corrupt_cursor :
    seen (.pkU8 0x55) (buf 0 0xFFFFFFFF [0]) = some (0xFFFFFFFF, [0], []) := by
  decide
/-- V8 -/
theorem test_pkBlob :
    seen (.pkBlob 3 [1, 2, 3]) (buf 0 0 [0, 0, 0, 0, 0]) = some (5, [0, 3, 1, 2, 3], []) := by
  decide
/-- V18 -/
theorem test_pkBlob_refused :
    causeOf (exec (.pkBlob 65536 []) State.reset) = some .badLength
    ∧ causeOf (exec (.pkBlob 3 [1, 2]) State.reset) = some .badPacket := by
  decide
/-- V8 -/
theorem test_upU8 :
    seen .upU8 (buf 0 0 [0xA5]) = some (1, [0xA5], [0xA5]) := by
  decide
/-- V8 -/
theorem test_upU16 :
    seen .upU16 (buf 0 0 [0xBE, 0xEF]) = some (2, [0xBE, 0xEF], [0xBEEF]) := by
  decide
/-- V8 -/
theorem test_upU32 :
    seen .upU32 (buf 0 0 [0x01, 0x02, 0x03, 0x04]) = some (4, [0x01, 0x02, 0x03, 0x04], [0x1020304]) := by
  decide
/-- V8 -/
theorem test_upU64 :
    seen .upU64 (buf 0 0 [0x01, 0x02, 0x03, 0x04, 0x05, 0x06, 0x07, 0x08]) = some (8, [0x01, 0x02, 0x03, 0x04, 0x05, 0x06, 0x07, 0x08], [0x102030405060708]) := by
  decide
/-- V8 -/
theorem test_upI8 :
    seen .upI8 (buf 0 0 [0x80]) = some (1, [0x80], [0xFFFFFFFFFFFFFF80]) := by
  decide
/-- V8 -/
theorem test_upI16 :
    seen .upI16 (buf 0 0 [0x7F, 0xFF]) = some (2, [0x7F, 0xFF], [0x7FFF]) := by
  decide
/-- V8 -/
theorem test_upI32 :
    seen .upI32 (buf 0 0 [0x80, 0x00, 0x00, 0x00]) = some (4, [0x80, 0x00, 0x00, 0x00], [0xFFFFFFFF80000000]) := by
  decide
/-- V8 -/
theorem test_upI64 :
    seen .upI64 (buf 0 0 [0xFF, 0xFF, 0xFF, 0xFF, 0xFF, 0xFF, 0xFF, 0xFE]) = some (8, [0xFF, 0xFF, 0xFF, 0xFF, 0xFF, 0xFF, 0xFF, 0xFE], [0xFFFFFFFFFFFFFFFE]) := by
  decide
/-- V8 -/
theorem test_upF32 :
    seen .upF32 (buf 0 0 [0x3F, 0xC0, 0x00, 0x00]) = some (4, [0x3F, 0xC0, 0x00, 0x00], [0x3FC00000]) := by
  decide
/-- R162 -/
theorem test_upF64 :
    seen .upF64 (buf 0 0 [0x40, 0x09, 0x21, 0xF9, 0xF0, 0x1B, 0x86, 0x6E]) = some (8, [0x40, 0x09, 0x21, 0xF9, 0xF0, 0x1B, 0x86, 0x6E], [0x400921F9F01B866E]) := by
  decide
/-- V9, step 7 -/
theorem test_upU32_under :
    seen .upU32 (buf 0 1 [0x11, 0x22, 0x55]) = some (1, [0x11, 0x22, 0x55], [0]) := by
  decide
/-- V8 -/
theorem test_upBlob :
    (after (exec .upBlob (buf 0 0 [0, 3, 1, 2, 3]))).map (fun t => (t.cursor, t.responses))
      = some (5, [⟨0, [3], [1, 2, 3]⟩]) := by
  decide
/-- V9, step 10 -/
theorem test_upBlob_under :
    (after (exec .upBlob (buf 0 0 [0x11, 0x22, 0x55]))).map (fun t => (t.cursor, t.responses))
      = some (0, [⟨0, [0], []⟩]) := by
  decide
/-- V10 -/
theorem test_qpk8S :
    seen (.qpk8S ⟨0x3F000000, 0x00000000, 0x3F800000⟩) (buf 0 0 [0x00]) = some (1, [0x7F], []) := by
  decide
/-- V10 -/
theorem test_qup8S :
    seen (.qup8S ⟨0x00000000, 0x3F800000⟩) (buf 0 0 [0x7F]) = some (1, [0x7F], [0x3EFEFEFF]) := by
  decide
/-- V10 -/
theorem test_qpk16S :
    seen (.qpk16S ⟨0x40490FD0, 0xC1200000, 0x41200000⟩) (buf 0 0 [0x00, 0x00]) = some (2, [0x35, 0xA8], []) := by
  decide
/-- V10 -/
theorem test_qup16S :
    seen (.qup16S ⟨0xC1200000, 0x41200000⟩) (buf 0 0 [0x35, 0xA8]) = some (2, [0x35, 0xA8], [0x40490C48]) := by
  decide
/-- V10 -/
theorem test_qpk24S :
    seen (.qpk24S ⟨0x40490FD0, 0xC1200000, 0x41200000⟩) (buf 0 0 [0x00, 0x00, 0x00]) = some (3, [0x5C, 0x36, 0xA8], []) := by
  decide
/-- V10 -/
theorem test_qup24S :
    seen (.qup24S ⟨0xC1200000, 0x41200000⟩) (buf 0 0 [0x5C, 0x36, 0xA8]) = some (3, [0x5C, 0x36, 0xA8], [0x40490FD0]) := by
  decide
/-- V10 -/
theorem test_qpk32S :
    seen (.qpk32S ⟨0x40490FD0, 0xC1200000, 0x41200000⟩) (buf 0 0 [0x00, 0x00, 0x00, 0x00]) = some (4, [0x00, 0x5D, 0x36, 0xA8], []) := by
  decide
/-- V10 -/
theorem test_qup32S :
    seen (.qup32S ⟨0xC1200000, 0x41200000⟩) (buf 0 0 [0x00, 0x5D, 0x36, 0xA8]) = some (4, [0x00, 0x5D, 0x36, 0xA8], [0x40490FD0]) := by
  decide
/-- V11 -/
theorem test_qpk8D :
    seen (.qpk8D ⟨0x3FE0000000000000, 0, 0x3FF0000000000000⟩) (buf 0 0 [0x00]) = some (1, [0x7F], []) := by
  decide +kernel
/-- V11 -/
theorem test_qup8D :
    seen (.qup8D ⟨0, 0x3FF0000000000000⟩) (buf 0 0 [0x7F]) = some (1, [0x7F], [0x3FDFDFDFDFDFDFE0]) := by
  decide +kernel
/-- V11 -/
theorem test_qpk16D :
    seen (.qpk16D ⟨0x400921F9F01B866E, 0xC024000000000000, 0x4024000000000000⟩) (buf 0 0 [0x00, 0x00]) = some (2, [0x35, 0xA8], []) := by
  decide
/-- V11 -/
theorem test_qup16D :
    seen (.qup16D ⟨0xC024000000000000, 0x4024000000000000⟩) (buf 0 0 [0x35, 0xA8]) = some (2, [0x35, 0xA8], [0x4009218921892188]) := by
  decide
/-- V11 -/
theorem test_qpk24D :
    seen (.qpk24D ⟨0x400921F9F01B866E, 0xC024000000000000, 0x4024000000000000⟩) (buf 0 0 [0x00, 0x00, 0x00]) = some (3, [0x5C, 0x36, 0xA8], []) := by
  decide
/-- V11 -/
theorem test_qup24D :
    seen (.qup24D ⟨0xC024000000000000, 0x4024000000000000⟩) (buf 0 0 [0x5C, 0x36, 0xA8]) = some (3, [0x5C, 0x36, 0xA8], [0x400921F9E921F9E8]) := by
  decide
/-- V11 -/
theorem test_qpk32D :
    seen (.qpk32D ⟨0x400921F9F01B866E, 0xC024000000000000, 0x4024000000000000⟩) (buf 0 0 [0x00, 0x00, 0x00, 0x00]) = some (4, [0xB2, 0x5C, 0x36, 0xA8], []) := by
  decide
/-- V11 -/
theorem test_qup32D :
    seen (.qup32D ⟨0xC024000000000000, 0x4024000000000000⟩) (buf 0 0 [0xB2, 0x5C, 0x36, 0xA8]) = some (4, [0xB2, 0x5C, 0x36, 0xA8], [0x400921F9EFA921FC]) := by
  decide
/-- V11 -/
theorem test_qpk40D :
    seen (.qpk40D ⟨0x400921F9F01B866E, 0xC024000000000000, 0x4024000000000000⟩) (buf 0 0 [0x00, 0x00, 0x00, 0x00, 0x00]) = some (5, [0x5E, 0xB3, 0x5C, 0x36, 0xA8], []) := by
  decide
/-- V11 -/
theorem test_qup40D :
    seen (.qup40D ⟨0xC024000000000000, 0x4024000000000000⟩) (buf 0 0 [0x5E, 0xB3, 0x5C, 0x36, 0xA8]) = some (5, [0x5E, 0xB3, 0x5C, 0x36, 0xA8], [0x400921F9F01B2924]) := by
  decide
/-- V11 -/
theorem test_qpk48D :
    seen (.qpk48D ⟨0x400921F9F01B866E, 0xC024000000000000, 0x4024000000000000⟩) (buf 0 0 [0x00, 0x00, 0x00, 0x00, 0x00, 0x00]) = some (6, [0x3C, 0x5F, 0xB3, 0x5C, 0x36, 0xA8], []) := by
  decide
/-- V11 -/
theorem test_qup48D :
    seen (.qup48D ⟨0xC024000000000000, 0x4024000000000000⟩) (buf 0 0 [0x3C, 0x5F, 0xB3, 0x5C, 0x36, 0xA8]) = some (6, [0x3C, 0x5F, 0xB3, 0x5C, 0x36, 0xA8], [0x400921F9F01B85E8]) := by
  decide
/-- V11 -/
theorem test_qpk56D :
    seen (.qpk56D ⟨0x400921F9F01B866E, 0xC024000000000000, 0x4024000000000000⟩) (buf 0 0 [0x00, 0x00, 0x00, 0x00, 0x00, 0x00, 0x00]) = some (7, [0x80, 0x3D, 0x5F, 0xB3, 0x5C, 0x36, 0xA8], []) := by
  decide
/-- V11 -/
theorem test_qup56D :
    seen (.qup56D ⟨0xC024000000000000, 0x4024000000000000⟩) (buf 0 0 [0x80, 0x3D, 0x5F, 0xB3, 0x5C, 0x36, 0xA8]) = some (7, [0x80, 0x3D, 0x5F, 0xB3, 0x5C, 0x36, 0xA8], [0x400921F9F01B8670]) := by
  decide
/-- V12: a value below the range, -63 mod 256 -/
theorem test_qpk8S_wraps :
    seen (.qpk8S ⟨0xBE800000, 0, 0x3F800000⟩) (buf 0 0 [0]) = some (1, [0xC1], []) := by
  decide
/-- V12: the top-code hazard near the maximum -/
theorem test_qpk32S_top_code :
    seen (.qpk32S ⟨0x411FFFFF, 0xC1200000, 0x41200000⟩) (buf 0 0 [1, 1, 1, 1])
      = some (4, [0, 0, 0, 0], []) := by
  decide
/-- V12: the top-code hazard -/
theorem test_qpk56D_top_code :
    seen (.qpk56D ⟨0x4024000000000000, 0xC024000000000000, 0x4024000000000000⟩)
      (buf 0 0 [1, 1, 1, 1, 1, 1, 1]) = some (7, [0, 0, 0, 0, 0, 0, 0], []) := by
  decide
/-- V12: an equal range, and a NaN value, take one draw -/
theorem test_qpk8S_invalid_range :
    shape (.qpk8S ⟨0x40A00000, 0x40A00000, 0x40A00000⟩) (buf 0 0 [0]) = some (1, 1)
    ∧ shape (.qpk8S ⟨0x7FC00000, 0, 0x3F800000⟩) (buf 0 0 [0]) = some (1, 1) := by
  decide
/-- V12: no room, no draw -/
theorem test_qpk16S_no_room_no_draw :
    shape (.qpk8S ⟨0x40A00000, 0x40A00000, 0x40A00000⟩) (buf 0 0 []) = some (0, 0) := by
  decide
/-- V12 -/
theorem test_qup8S_invalid_range :
    shape (.qup8S ⟨0x3F800000, 0x3F800000⟩) (buf 0 0 [0x7F]) = some (1, 1) := by
  decide
/-- V12: +0.0 even outside the range -/
theorem test_qup16S_under :
    seen (.qup16S ⟨0x40A00000, 0x40C00000⟩) (buf 0 0 [9]) = some (0, [9], [0]) := by
  decide
/-- V13 -/
theorem test_bpk71 :
    seen (.bpk71 ⟨0x3F000000, 0x00000000, 0x3F800000⟩ ⟨0x3F800000, 0x00000000, 0x3F800000⟩)
      (buf 0 0 [0x00]) = some (1, [0x7F], []) := by
  decide
/-- V13 -/
theorem test_bup71 :
    seen (.bup71 ⟨0x00000000, 0x3F800000⟩ ⟨0x00000000, 0x3F800000⟩)
      (buf 0 0 [0x7F]) = some (1, [0x7F], [0x3EFDFBF8, 0x3F800000]) := by
  decide
/-- V13 -/
theorem test_bpk62 :
    seen (.bpk62 ⟨0x3F000000, 0x00000000, 0x3F800000⟩ ⟨0x40000000, 0x00000000, 0x40400000⟩)
      (buf 0 0 [0x00]) = some (1, [0x7E], []) := by
  decide
/-- V13 -/
theorem test_bup62 :
    seen (.bup62 ⟨0x00000000, 0x3F800000⟩ ⟨0x00000000, 0x40400000⟩)
      (buf 0 0 [0x7E]) = some (1, [0x7E], [0x3EFBEFBF, 0x40000000]) := by
  decide
/-- V13 -/
theorem test_bpk44 :
    seen (.bpk44 ⟨0x3F000000, 0x00000000, 0x3F800000⟩ ⟨0x3E4CCCCD, 0x00000000, 0x3F800000⟩)
      (buf 0 0 [0x00]) = some (1, [0x73], []) := by
  decide
/-- V13 -/
theorem test_bup44 :
    seen (.bup44 ⟨0x00000000, 0x3F800000⟩ ⟨0x00000000, 0x3F800000⟩)
      (buf 0 0 [0x73]) = some (1, [0x73], [0x3EEEEEEF, 0x3E4CCCCD]) := by
  decide
/-- V2 -/
theorem test_bpk655 :
    seen (.bpk655 ⟨0x3F000000, 0x00000000, 0x3F800000⟩ ⟨0xBF000000, 0xBF800000, 0x3F800000⟩ ⟨0x41200000, 0x00000000, 0x41F80000⟩)
      (buf 0 0 [0x00, 0x00]) = some (2, [0x7C, 0xEA], []) := by
  decide
/-- V2 -/
theorem test_bup655 :
    seen (.bup655 ⟨0x00000000, 0x3F800000⟩ ⟨0xBF800000, 0x3F800000⟩ ⟨0x00000000, 0x41F80000⟩)
      (buf 0 0 [0x7C, 0xEA]) = some (2, [0x7C, 0xEA], [0x3EFBEFBF, 0xBF0C6319, 0x41200000]) := by
  decide
/-- V13 -/
theorem test_bpk111110 :
    seen (.bpk111110 ⟨0x3F000000, 0x00000000, 0x3F800000⟩ ⟨0xBF000000, 0xBF800000, 0x3F800000⟩ ⟨0x3F800000, 0x00000000, 0x3F800000⟩)
      (buf 0 0 [0x00, 0x00, 0x00, 0x00]) = some (4, [0x7F, 0xE7, 0xFF, 0xFF], []) := by
  decide
/-- V13 -/
theorem test_bup111110 :
    seen (.bup111110 ⟨0x00000000, 0x3F800000⟩ ⟨0xBF800000, 0x3F800000⟩ ⟨0x00000000, 0x3F800000⟩)
      (buf 0 0 [0x7F, 0xE7, 0xFF, 0xFF]) = some (4, [0x7F, 0xE7, 0xFF, 0xFF], [0x3EFFDFFC, 0xBF003006, 0x3F800000]) := by
  decide
/-- Program D -/
theorem test_bpk10X4 :
    seen (.bpk10X4 ⟨0x00000000, 0xBF800000, 0x3F800000⟩ ⟨0x00000000, 0xBF800000, 0x3F800000⟩ ⟨0x3F3504F3, 0xBF800000, 0x3F800000⟩ ⟨0x3F3504F3, 0xBF800000, 0x3F800000⟩)
      (buf 0 0 [0x00, 0x00, 0x00, 0x00, 0x00]) = some (5, [0x7F, 0xDF, 0xFD, 0xA7, 0x69], []) := by
  decide
/-- Program D -/
theorem test_bup10X4 :
    seen (.bup10X4 ⟨0xBF800000, 0x3F800000⟩ ⟨0xBF800000, 0x3F800000⟩ ⟨0xBF800000, 0x3F800000⟩ ⟨0xBF800000, 0x3F800000⟩)
      (buf 0 0 [0x7F, 0xDF, 0xFD, 0xA7, 0x69]) = some (5, [0x7F, 0xDF, 0xFD, 0xA7, 0x69], [0xBA802000, 0xBA802000, 0x3F34ED3C, 0x3F34ED3C]) := by
  decide
/-- V13 -/
theorem test_bpk1111108 :
    seen (.bpk1111108 ⟨0x00000000, 0xBF800000, 0x3F800000⟩ ⟨0x00000000, 0xBF800000, 0x3F800000⟩ ⟨0x3F3504F3, 0xBF800000, 0x3F800000⟩ ⟨0x3F3504F3, 0xBF800000, 0x3F800000⟩)
      (buf 0 0 [0x00, 0x00, 0x00, 0x00, 0x00]) = some (5, [0x7F, 0xEF, 0xFF, 0x69, 0xD9], []) := by
  decide
/-- V13 -/
theorem test_bup1111108 :
    seen (.bup1111108 ⟨0xBF800000, 0x3F800000⟩ ⟨0xBF800000, 0x3F800000⟩ ⟨0xBF800000, 0x3F800000⟩ ⟨0xBF800000, 0x3F800000⟩)
      (buf 0 0 [0x7F, 0xEF, 0xFF, 0x69, 0xD9]) = some (5, [0x7F, 0xEF, 0xFF, 0x69, 0xD9], [0xBA001000, 0xBA001000, 0x3F34ED3C, 0x3F33B3B4]) := by
  decide
/-- V13a -/
theorem test_bpk10X4_placement :
    seen (.bpk10X4 ⟨0x3F800000, 0x00000000, 0x3F800000⟩ ⟨0x00000000, 0x00000000, 0x3F800000⟩ ⟨0x3F800000, 0x00000000, 0x3F800000⟩ ⟨0x00000000, 0x00000000, 0x3F800000⟩)
      (buf 0 0 [0, 0, 0, 0, 0]) = some (5, [0xFF, 0xC0, 0x0F, 0xFC, 0x00], []) := by
  decide
/-- V13b -/
theorem test_bpk655_wraps_in_field :
    seen (.bpk655 ⟨0x40000000, 0x00000000, 0x3F800000⟩ ⟨0x00000000, 0x00000000, 0x3F800000⟩ ⟨0x00000000, 0x00000000, 0x3F800000⟩)
      (buf 0 0 [0, 0]) = some (2, [0xF8, 0x00], []) := by
  decide
/-- V13b: one draw, for field b alone -/
theorem test_bpk655_one_field_free :
    shape (.bpk655 ⟨0x3F000000, 0x00000000, 0x3F800000⟩ ⟨0x3F000000, 0x3F800000, 0x3F800000⟩ ⟨0x3F800000, 0x00000000, 0x3F800000⟩) (buf 0 0 [0, 0]) = some (2, 1) := by
  decide
/-- V13b -/
theorem test_bup655_under :
    seen (.bup655 ⟨0x00000000, 0x3F800000⟩ ⟨0x00000000, 0x3F800000⟩ ⟨0x00000000, 0x3F800000⟩) (buf 0 0 [9]) = some (0, [9], [0, 0, 0]) := by
  decide

/-! ### Composites (45_composite.md) -/

/-- V17 and program D -/
theorem test_normq :
    normqWords Config.qnum (fun _ => 0) 0xBA802000 0xBA802000 0x3F34ED3C 0x3F34ED3C
      = [0xBA8030C3, 0xBA8030C3, 0x3F3504E8, 0x3F3504E8] := by
  decide +kernel
/-- V17: the all-zero under-read -/
theorem test_normq_identity :
    normqWords Config.qnum (fun _ => 0) 0 0 0 0 = [0, 0, 0, 0x3F800000] := by
  decide
/-- V17 -/
theorem test_v3pk16 :
    (after (execAll (Pseudo.v3pk .t16 0x3F800000 0xC0200000 0x40490FD0 0xC1200000 0x41200000).expand
      (buf 0 0 [0, 0, 0, 0, 0, 0]))).map Machine.State.image = some [0xCC, 0x8C, 0xFF, 0x5F, 0x35, 0xA8] := by
  decide
/-- V17 -/
theorem test_qtup8 :
    (after (execAll (Pseudo.qtup .t8 0xBF800000 0x3F800000).expand (buf 0 0 [0x7F, 0x7F, 0xD9, 0xD9]))).map
      (fun t => Pseudo.answers Config.qnum (fun _ => 0) (.qtup .t8 0xBF800000 0x3F800000) (newWords State.reset t))
      = some [0xBB817124, 0xBB817124, 0x3F35043A, 0x3F35043A] := by
  decide +kernel

/-! ### Stepping, refusing, reset -/

/-- CONSTRUCT 4, 0 as the first packet after reset -/
theorem test_step_first_command :
    (after (step (State.reset.withFetchWord 96 0x000000000000000401000000))).map
      (fun t => (t.len, t.cursor, t.pc, t.responses)) = some (4, 0, 1, [⟨0, [], []⟩]) := by
  decide
/-- V18 and R266 -/
theorem test_step_refuses :
    causeOf (step (State.reset.withFetchWord 32 0x00000000)) = some .illegalOpcode
    ∧ (after (serve (State.reset.withFetchWord 32 0x00000000))).map
        (fun t => (t.pc, t.commands, t.responses)) = some (0, [], [⟨0x80000001, [], []⟩]) := by
  decide
/-- V8d, R283 -/
theorem test_reset_answers :
    [Instr.upU64, .fpGet, .fpChk, .rdcsr 3].map (fun i => (seen i State.reset).map fun x => x.2.2)
      = [some [0], some [0], some [1], some [0]] := by
  decide
/-- The reset state is well formed -/
theorem test_reset_wf :
    State.reset.wf = true := by
  decide

/-! ### Witnesses: for each statement of Certificates/Slice0/Obligations.lean that has hypotheses, a state and
operands that meet them, each clause at the edge of its range -/

/-- Eight zero bytes, no prefix, the cursor at the start: every access up to eight bytes fits. -/
def room8 : State := buf 0 0 [0, 0, 0, 0, 0, 0, 0, 0]

/-- Two prefix bytes, four payload bytes, the cursor inside the payload. -/
def withPrefix : State := buf 2 3 [0xAA, 0xBB, 1, 2, 3, 4]

/-- A state and the one packet the host has sent. -/
def sent (p : Packet) (s : State) : State := { s with commands := [p] }

theorem witness_EncodeUndoesDecode :
    decode ⟨0x21000000, [0xBEEF], []⟩ = .ok (.pkU16 0xBEEF) := rfl

theorem witness_StepRunsTheNextCommand :
    (sent ⟨0x30000000, [], []⟩ room8).commands[room8.pc]? = some ⟨0x30000000, [], []⟩ ∧
      decode ⟨0x30000000, [], []⟩ = .ok .upU8 ∧
      (sent ⟨0, [], []⟩ room8).commands[room8.pc]? = some ⟨0, [], []⟩ ∧
      decode ⟨0, [], []⟩ = .error .illegalOpcode ∧ room8.commands[room8.pc]? = none :=
  ⟨rfl, rfl, rfl, rfl, rfl⟩

/-- Each cause at the first value that gives it, and each value before it that passes. -/
theorem witness_ChecksRunInTheStatedOrder :
    room8.legal = true ∧
      [(⟨0x09000000, [], []⟩ : Packet), ⟨0x03000001, [], []⟩, ⟨0x01000010, [0], []⟩,
        ⟨0x02000040, [0], []⟩, ⟨0x07000004, [], []⟩, ⟨0x03000100, [], []⟩, ⟨0x03000000, [0], []⟩,
        ⟨0x21000000, [0], [0]⟩, ⟨0x01000003, [0], []⟩, ⟨0x02000009, [0], []⟩,
        ⟨0x2A000000, [65536], []⟩, ⟨0x2A000000, [65535], []⟩, ⟨0x02000000, [1], []⟩,
        ⟨0x02000014, [3], [0, 0, 0]⟩, ⟨0x02000024, [3], [0, 0, 0]⟩].map checkedCause =
        [some .illegalOpcode, some .reservedBits, some .reservedBits, some .reservedBits,
          some .reservedBits, some .reservedBits, some .badPacket, some .badPacket,
          some .illegalFpw, some .illegalFpw, some .badLength, some .badPacket, some .badPacket,
          some .badLength, some .badLength] ∧
      [(⟨0x08000000, [], []⟩ : Packet), ⟨0x01000008, [0], []⟩, ⟨0x02000034, [4], [0, 0, 0, 0]⟩,
        ⟨0x07000003, [], []⟩, ⟨0x2A000000, [1], [0]⟩].map checkedCause =
        [none, none, none, none, none] := by
  refine ⟨?_, ?_, ?_⟩ <;> decide

/-- The size checks of CONSTRUCT and of ADOPT: the smallest region that is too large. -/
theorem witness_ChecksRunInTheStatedOrder_tooLarge :
    checkedCause ⟨0x01000004, [BitVec.ofNat 64 (Config.memBytes - 3)], []⟩ = some .tooLarge ∧
      checkedCause ⟨0x01000004, [BitVec.ofNat 64 (Config.memBytes - 4)], []⟩ = none ∧
      checkedCause ⟨0x02000014, [BitVec.ofNat 64 (Config.memBytes + 1)],
        List.replicate (Config.memBytes + 1) 0⟩ = some .tooLarge ∧
      checkedCause ⟨0x02000004, [BitVec.ofNat 64 (Config.memBytes - 3)],
        List.replicate (Config.memBytes - 3) 0⟩ = some .tooLarge := by
  have := memBytes_bounds
  have h (n : Nat) (hn : n ≤ Config.memBytes + 1) : (BitVec.ofNat 64 n).toNat = n := by
    rw [BitVec.toNat_ofNat]; omega
  have h1 := h (Config.memBytes + 1) (by omega)
  have h3 := h (Config.memBytes - 3) (by omega)
  have h4 := h (Config.memBytes - 4) (by omega)
  refine ⟨?_, ?_, ?_, ?_⟩ <;> simp [checkedCause, Packet.opc, Packet.mod, Packet.zero, opcodeLegal,
    modReserved, operandCount, takesData, h1, h3, h4, -BitVec.toNat_ofNat] <;> omega

theorem witness_RefusalDependsOnThePacketAlone :
    room8.legal = true ∧ (Instr.construct 3 0).wf = false ∧
      exec (.construct 3 0) room8 = .refused (.packet .illegalFpw) := ⟨by decide, by decide, rfl⟩

theorem witness_StepKeepsWellFormed :
    (sent ⟨0x20000000, [7], []⟩ room8).wf = true ∧
      ∃ t, step (sent ⟨0x20000000, [7], []⟩ room8) = .next t := ⟨by decide, _, rfl⟩

theorem witness_EmptyBufferAnswers :
    State.reset.len = 0 ∧ State.reset.fpw = 0 ∧ State.reset.cursor = 0 ∧
      isPack (.pkBlob 0 []) = true ∧ (Instr.pkBlob 0 []).wf = true ∧ isUnpack .upBlob = true :=
  ⟨rfl, rfl, rfl, rfl, by decide, rfl⟩

theorem witness_NoStepFaults : room8.legal = true ∧ withPrefix.legal = true := by decide

theorem witness_EveryCommandAnswersOnce :
    ∀ i ∈ [Instr.dump, .upBlob, .upU8, .seekStart], ∃ t, exec i room8 = .next t := by
  intro i h
  simp only [List.mem_cons, List.not_mem_nil, or_false] at h
  rcases h with rfl | rfl | rfl | rfl <;> exact ⟨_, rfl⟩

theorem witness_OnlyTheseWritesExist :
    withPrefix.wf = true ∧ ∀ i ∈ [Instr.fpGen, .pkU16 7, .upU16, .seekStart, .upBlob],
      isBuild i = false ∧ ∃ t, exec i withPrefix = .next t := by
  refine ⟨by decide, fun i h => ?_⟩
  simp only [List.mem_cons, List.not_mem_nil, or_false] at h
  rcases h with rfl | rfl | rfl | rfl | rfl <;> exact ⟨rfl, _, rfl⟩

/-- The cursor at both ends of its range, one past it, and one before it. -/
theorem witness_CursorInvariant :
    (∀ i ∈ [Instr.construct 8 0, .adopt 2 false true 2 [0, 0], .seekStart, .seekTo 3],
      ∃ t, exec i withPrefix = .next t) ∧
      [2, 6, 7, 1].map (fun c => (buf 2 c [0, 0, 0, 0, 0, 0]).cursorOk) = [true, true, false, false] ∧
      [2, 6, 7, 1].map (fun c => (buf 2 c [0, 0, 0, 0, 0, 0]).legal) = [true, true, true, true] ∧
      (∃ t, exec .upU8 (buf 2 6 [0, 0, 0, 0, 0, 0]) = .next t) ∧
      isPack (.pkU8 0) = true ∧ (Instr.pkU8 0).wf = true ∧ isUnpack .upU8 = true := by
  refine ⟨fun i h => ?_, by decide, by decide, ⟨_, rfl⟩, rfl, rfl, rfl⟩
  simp only [List.mem_cons, List.not_mem_nil, or_false] at h
  rcases h with rfl | rfl | rfl | rfl <;> exact ⟨_, rfl⟩

theorem witness_FitsIsTheSourceCheck :
    room8.cursorOk = true ∧ room8.legal = true ∧ room8.fits 8 = true ∧ room8.fits 9 = false := by
  decide

/-- Two states that differ in a byte above the buffer, a command that runs and one that is refused. -/
theorem witness_BytesAboveBackingAreInvisible :
    ∀ p ∈ [(⟨0x30000000, [], []⟩ : Packet), ⟨0, [], []⟩],
      let s := sent p (buf 0 0 [1, 2])
      let u := { s with mem := s.mem ++ [(2, 9)] }
      s.wf = true ∧ u.wf = true ∧ Agree s u ∧ s.mem ≠ u.mem ∧
        ((∃ t, step s = .next t) ∨ ∃ c, step s = .refused c) := by
  intro p h
  simp only [List.mem_cons, List.not_mem_nil, or_false] at h
  rcases h with rfl | rfl
  · exact ⟨by decide, by decide, ⟨rfl, rfl, rfl, rfl, rfl, rfl, rfl, by decide⟩, by decide, .inl ⟨_, rfl⟩⟩
  · exact ⟨by decide, by decide, ⟨rfl, rfl, rfl, rfl, rfl, rfl, rfl, by decide⟩, by decide, .inr ⟨_, rfl⟩⟩

theorem witness_OnlyOpenResultsTakeDraws :
    (∃ t, exec .upU8 room8 = .next t) ∧ mayDraw .upU8 = false ∧
      ∃ t, exec (.adopt 2 false true 2 [0, 0]) room8 = .next t := ⟨⟨_, rfl⟩, rfl, _, rfl⟩

/-- One byte too few, for a pack, an unpack, a blob's length and a blob's body. -/
theorem witness_AccessThatDoesNotFitChangesNothing :
    (Instr.pkU16 0).wf = true ∧ accessBytes (.pkU16 0) = some 2 ∧ accessBytes .upU16 = some 2 ∧
      (buf 0 0 [9]).fits 2 = false ∧ (buf 0 0 [0, 2, 9]).legal = true ∧
      (buf 0 0 [0, 2, 9]).fits 2 = true ∧
      (buf 0 0 [0, 2, 9]).fits (2 + beWord (buf 0 0 [0, 2, 9]).mem 0 2) = false := by
  decide

theorem witness_ServeAnswersARefusal :
    decode ⟨0, [], []⟩ = .error .illegalOpcode ∧ decode ⟨0x01000003, [0], []⟩ = .ok (.construct 3 0) ∧
      exec (.construct 3 0) (sent ⟨0x01000003, [0], []⟩ room8) = .refused (.packet .illegalFpw) :=
  ⟨rfl, rfl, rfl⟩

theorem witness_FpGenWritesTheFingerprint : withPrefix.wf = true ∧ room8.wf = true := by decide

theorem witness_FpGetAnswersTheStoredPrefix : withPrefix.legal = true ∧ room8.legal = true := by decide

theorem witness_FpChkComparesStoredWithRecomputed :
    withPrefix.legal = true ∧ withPrefix.fpw ≠ 0 ∧ room8.legal = true ∧ room8.fpw = 0 := by decide

/-- Reading commands after FP_GEN; and a pack after it that leaves the payload as it was. -/
theorem witness_FingerprintValidAfterGeneration :
    withPrefix.wf = true ∧ (∀ i ∈ [Instr.upU8, .seekStart, .fpGet, .fpGen, .dump],
      isPack i = false ∧ isBuild i = false) ∧
      (∃ t, execAll [.fpGen] withPrefix = .next t ∧ t.payload = withPrefix.payload) ∧
      room8.fpw = 0 ∧ isBuild (.pkU8 0) = false ∧
      ∃ t, execAll [.fpGen, .pkU8 0] room8 = .next t ∧ t.payload = room8.payload := by
  refine ⟨by decide, by decide, ⟨_, rfl, ?_⟩, rfl, rfl, _, rfl, by decide⟩
  exact Memory.readBytes_congr fun x h _ => by
    have hx : 2 ≤ x := h
    simp [Memory.read_writeBytes _ _ _ (show withPrefix.mem.wf = true by decide)]
    intro h2
    exact absurd (show x < 2 from h2) (by omega)

/-- A buffer that fills `MEM` exactly, and one that is a byte too large. -/
theorem witness_ConstructMakesAZeroedBuffer :
    room8.wf = true ∧ (3 : BitVec 4).toNat ∉ [0, 1, 2, 4, 8] ∧ (8 : BitVec 4).toNat ∈ [0, 1, 2, 4, 8] ∧
      (BitVec.ofNat 64 (Config.memBytes - 8)).toNat + (8 : BitVec 4).toNat = Config.memBytes ∧
      Config.memBytes < (BitVec.ofNat 64 (Config.memBytes - 7)).toNat + (8 : BitVec 4).toNat := by
  have := memBytes_bounds
  refine ⟨by decide, by decide, by decide, ?_, ?_⟩ <;> simp <;> omega

/-- Bytes that are just the prefix, a byte fewer, just the memory, and a byte more, for both layouts. -/
theorem witness_AdoptTakesTheBytes :
    room8.wf = true ∧ (9 : BitVec 4).toNat ∉ [0, 1, 2, 4, 8] ∧ (8 : BitVec 4).toNat ∈ [0, 1, 2, 4, 8] ∧
      ([0, 0] : List Byte).length ≠ (1 : Op).toNat ∧
      (8 : Op).toNat = (8 : BitVec 4).toNat ∧ (7 : Op).toNat < (8 : BitVec 4).toNat ∧
      (List.replicate Config.memBytes (0 : Byte)).length = (BitVec.ofNat 64 Config.memBytes).toNat ∧
      Config.memBytes < (BitVec.ofNat 64 (Config.memBytes + 1)).toNat ∧
      (BitVec.ofNat 64 (Config.memBytes - 8)).toNat + (8 : BitVec 4).toNat = Config.memBytes ∧
      Config.memBytes < (BitVec.ofNat 64 (Config.memBytes - 7)).toNat + (8 : BitVec 4).toNat := by
  have := memBytes_bounds
  refine ⟨by decide, by decide, by decide, by decide, by decide, by decide, ?_, ?_, ?_, ?_⟩ <;>
    simp <;> omega

/-- The first and the last payload index, one before and one after, and an empty payload. -/
theorem witness_SeekCommandsSetTheCursor :
    withPrefix.legal = true ∧ withPrefix.len = 4 ∧ (0xFFFFFFFFFFFFFFFF : Op).toInt < 0 ∧
      0 ≤ (0 : Op).toInt ∧ (3 : Op).toInt < withPrefix.len.toNat ∧
      (withPrefix.len.toNat : Int) ≤ (4 : Op).toInt ∧
      (buf 4 0 [0, 0, 0, 0]).legal = true ∧ (buf 4 0 [0, 0, 0, 0]).len = 0 := by
  decide

theorem witness_RdcsrReadsARegister : 4 ≤ (4 : BitVec 8).toNat := by decide

theorem witness_DumpAnswersTheWireImage : room8.legal = true ∧ State.reset.legal = true := by decide

theorem witness_DumpedImageIsAdopted : withPrefix.legal = true ∧ State.reset.wf = true := by decide

/-- Every width of an access fits in one state, and in the other a byte is missing for each. -/
theorem witness_PrimitivePacksStoreBigEndian :
    room8.wf = true ∧ [1, 2, 4, 8].all room8.fits = true ∧
      [(1, 0), (2, 1), (4, 3), (8, 7)].map (fun x =>
        (buf 0 0 (List.replicate x.2 0)).wf && !(buf 0 0 (List.replicate x.2 0)).fits x.1) =
        [true, true, true, true] := by
  decide

theorem witness_PrimitiveUnpacksAnswerTheField :
    room8.legal = true ∧ [1, 2, 4, 8].all room8.fits = true ∧
      [(1, 0), (2, 1), (4, 3), (8, 7)].map (fun x =>
        (buf 0 0 (List.replicate x.2 0)).legal && !(buf 0 0 (List.replicate x.2 0)).fits x.1) =
        [true, true, true, true] := by
  decide

/-- A length of 65536; of 65535 with a byte too few; a blob that just fits, and one a byte too long. -/
theorem witness_BlobPackStoresLengthAndBody :
    room8.wf = true ∧ 65535 < (65536 : Op).toNat ∧ (65535 : Op).toNat ≤ 65535 ∧
      (List.replicate 65534 (0 : Byte)).length ≠ (65535 : Op).toNat ∧
      (List.replicate 65535 (0 : Byte)).length = (65535 : Op).toNat ∧
      (List.replicate 6 (0 : Byte)).length = (6 : Op).toNat ∧ room8.fits (2 + (6 : Op).toNat) = true ∧
      (List.replicate 7 (0 : Byte)).length = (7 : Op).toNat ∧ room8.fits (2 + (7 : Op).toNat) = false := by
  refine ⟨by decide, by decide, by decide, ?_, ?_, ?_, by decide, ?_, by decide⟩ <;>
    rw [List.length_replicate] <;> decide

theorem witness_BlobUnpackAnswersTheBody :
    (buf 0 0 [9]).legal = true ∧ (buf 0 0 [9]).fits 2 = false ∧
      (buf 0 0 [0, 2, 9]).legal = true ∧ (buf 0 0 [0, 2, 9]).fits 2 = true ∧
      (buf 0 0 [0, 2, 9]).fits (2 + beWord (buf 0 0 [0, 2, 9]).mem 0 2) = false ∧
      (buf 0 0 [0, 1, 9]).legal = true ∧ (buf 0 0 [0, 1, 9]).fits 2 = true ∧
      (buf 0 0 [0, 1, 9]).fits (2 + beWord (buf 0 0 [0, 1, 9]).mem 0 2) = true := by
  decide

theorem witness_PrimitiveRoundTrip :
    room8.wf = true ∧ [1, 2, 4, 8].all room8.fits = true ∧
      ([1, 2, 3, 4, 5, 6] : List Byte).length ≤ 65535 ∧
      room8.fits (2 + ([1, 2, 3, 4, 5, 6] : List Byte).length) = true := by
  decide

/-- Every code width fits in one state, and in the other a byte is missing for each. -/
theorem witness_QuantPacksStoreTheCode :
    room8.wf = true ∧ [1, 2, 3, 4, 5, 6, 7].all room8.fits = true ∧
      [1, 2, 3, 4, 5, 6, 7].all (fun n => (buf 0 0 (List.replicate (n - 1) 0)).wf &&
        !(buf 0 0 (List.replicate (n - 1) 0)).fits n) = true := by
  decide

theorem witness_QuantUnpacksAnswerTheValue :
    room8.legal = true ∧ [1, 2, 3, 4, 5, 6, 7].all room8.fits = true ∧
      [1, 2, 3, 4, 5, 6, 7].all (fun n => (buf 0 0 (List.replicate (n - 1) 0)).legal &&
        !(buf 0 0 (List.replicate (n - 1) 0)).fits n) = true := by
  decide

theorem witness_QuantRoundTrip :
    room8.wf = true ∧ [1, 2, 3, 4, 5, 6, 7].all room8.fits = true := by decide

/-- From 0 to the largest finite number in binary32, from 1 to 2 in binary64. -/
theorem witness_MinimumPacksAsCodeZero :
    (Fl.ofBits .S 0x7F7FFFFF).gt (Fl.ofBits .S 0) = true ∧ (Fl.ofBits .S 0).trunc ≠ none ∧
      (Fl.ofBits .D 0x4000000000000000).gt (Fl.ofBits .D 0x3FF0000000000000) = true ∧
      (Fl.ofBits .D 0x3FF0000000000000).trunc ≠ none ∧ 0 < 1 ∧ 56 ≤ 56 := by
  decide

theorem witness_MaximumPacksAsTopCodeOrWraps :
    (Fl.ofBits .S 0x3F800000).gt (Fl.ofBits .S 0) = true ∧
      (fsub .S (Fl.ofBits .S 0x3F800000) (Fl.ofBits .S 0)).trunc ≠ none ∧
      (Fl.ofBits .D 0x4000000000000000).gt (Fl.ofBits .D 0x3FF0000000000000) = true ∧
      (fsub .D (Fl.ofBits .D 0x4000000000000000) (Fl.ofBits .D 0x3FF0000000000000)).trunc ≠ none := by
  decide

/-- Both ends of a range. -/
theorem witness_InRangeValuesTakeNoDraw :
    ((Fl.ofBits .S 0x3F800000).gt (Fl.ofBits .S 0) = true ∧
      (fsub .S (Fl.ofBits .S 0x3F800000) (Fl.ofBits .S 0)).trunc ≠ none) ∧
      (Fl.ofBits .S 0 ≠ .nan ∧ (Fl.ofBits .S 0).gt (Fl.ofBits .S 0) = false ∧
        (Fl.ofBits .S 0).gt (Fl.ofBits .S 0x3F800000) = false) ∧
      (Fl.ofBits .S 0x3F800000 ≠ .nan ∧ (Fl.ofBits .S 0).gt (Fl.ofBits .S 0x3F800000) = false ∧
        (Fl.ofBits .S 0x3F800000).gt (Fl.ofBits .S 0x3F800000) = false) := by
  refine ⟨⟨?_, ?_⟩, ⟨?_, ?_, ?_⟩, ?_, ?_, ?_⟩ <;> decide

/-- An exact value, a tie, the largest number and the overflow threshold. -/
theorem witness_RoundingGivesTheNearestValue :
    0 < 1 ∧ Fl.round .S false 1 1 = .fin false 0x800000 (-23) ∧
      Fl.round .S true 0x1000001 1 = .fin true 0x800000 1 ∧
      Fl.round .S false (0xFFFFFF * 2 ^ 104) 1 = .fin false 0xFFFFFF 104 ∧
      Fl.round .S false (0x1FFFFFF * 2 ^ 103) 1 = .inf false := ⟨by decide, rfl, rfl, rfl, rfl⟩

/-- The ties 1/2 and 3/2 and both sides of one. -/
theorem witness_RneIsNearestTiesToEven :
    [rne 1 2, rne 3 2, rne 2 5, rne 3 5] = [0, 2, 0, 1] := by decide

theorem witness_FloatPatternsRoundTrip :
    Fl.ofBits .S 0x7F800000 ≠ .nan ∧ Fl.ofBits .S 0x80000001 ≠ .nan ∧
      Fl.ofBits .D 0x7FF0000000000000 ≠ .nan ∧ Fl.ofBits .D 0x8000000000000001 ≠ .nan := by decide

theorem witness_BitPacksStoreTheWord :
    room8.wf = true ∧ [1, 2, 4, 5].all room8.fits = true ∧
      [1, 2, 4, 5].all (fun n => (buf 0 0 (List.replicate (n - 1) 0)).wf &&
        !(buf 0 0 (List.replicate (n - 1) 0)).fits n) = true := by
  decide

theorem witness_BitUnpacksAnswerTheFields :
    room8.legal = true ∧ [1, 2, 4, 5].all room8.fits = true ∧
      [1, 2, 4, 5].all (fun n => (buf 0 0 (List.replicate (n - 1) 0)).legal &&
        !(buf 0 0 (List.replicate (n - 1) 0)).fits n) = true := by
  decide

theorem witness_FieldExtractionInvertsAssembly :
    ∀ f ∈ [(6, 63), (5, 0), (5, 31)], f.2 < 2 ^ f.1 := by decide

theorem witness_BitPackRoundTrip : room8.wf = true ∧ [1, 2, 4, 5].all room8.fits = true := by decide

theorem witness_VectorRoundTrip : room8.wf = true ∧ room8.fits 8 = true := by decide

/-- Room for just two components, and for a byte more. -/
theorem witness_PartialCompositePack :
    [[0, 0, 0, 0], [0, 0, 0, 0, 0]].map (fun b =>
      ((buf 0 0 b).wf, (buf 0 0 b).fits 4, (buf 0 0 b).fits 6)) =
      [(true, true, false), (true, true, false)] := by decide

theorem witness_QuaternionUnderReadGivesIdentity :
    (buf 0 8 [0, 0, 0, 0, 0, 0, 0, 0]).fits 1 = false ∧ (buf 0 0 [0, 0, 0, 0]).fits 5 = false := by decide

/-- 1 and 2, 1 and -1, 1 and 1, a divisor, a number without a minus sign, and a denominator. -/
theorem witness_FloatOperationsRoundOnce :
    signedValue false 1 0 + signedValue false 1 1 ≠ 0 ∧
      signedValue false 1 0 + signedValue true 1 0 = 0 ∧
      signedValue false 1 0 - signedValue true 1 0 ≠ 0 ∧
      signedValue false 1 0 - signedValue false 1 0 = 0 ∧ signedValue true 1 0 ≠ 0 ∧ 0 < 1 := by
  norm_num [signedValue]

theorem witness_SpecialFloatResults : (1 : Nat) ≠ 0 := by decide

/-- An invalid range, a NaN bound, a NaN and an infinite value, an infinite scaled value, and a
finite one. -/
theorem witness_CodesWrapOrAreFree :
    (Fl.ofBits .S 0).gt (Fl.ofBits .S 0) = false ∧ Fl.ofBits .S 0x7FC00000 = .nan ∧
      Fl.ofBits .S 0xFF800000 = .inf true ∧
      fmul .S (fdiv .S (fsub .S (Fl.ofBits .S 0x7F7FFFFF) (Fl.ofBits .S 0))
        (fsub .S (Fl.ofBits .S 0x3F000000) (Fl.ofBits .S 0))) (constant .S 255 1) = .inf false ∧
      (Fl.ofBits .S 0x3F800000).gt (Fl.ofBits .S 0) = true ∧
      (fmul .S (fdiv .S (fsub .S (Fl.ofBits .S 0x3F800000) (Fl.ofBits .S 0))
        (fsub .S (Fl.ofBits .S 0x3F800000) (Fl.ofBits .S 0))) (constant .S 255 1)).trunc =
          some 255 :=
  ⟨rfl, rfl, rfl, rfl, rfl, by decide⟩

/-- An invalid range, a range of finite width, and one of infinite width, at the least and the largest N. -/
theorem witness_DecodedValueOfACode :
    0 < 1 ∧ 56 ≤ 56 ∧ (Fl.ofBits .S 0).gt (Fl.ofBits .S 0) = false ∧
      (Fl.ofBits .S 0x3F800000).gt (Fl.ofBits .S 0) = true ∧
      (fsub .S (Fl.ofBits .S 0x3F800000) (Fl.ofBits .S 0)).trunc ≠ none ∧
      Fl.ofBits .S 0x80000000 = .fin true 0 Fmt.S.eMin ∧
      (Fl.ofBits .S 0x7F800000).gt (Fl.ofBits .S 0) = true ∧
      (fsub .S (Fl.ofBits .S 0x7F800000) (Fl.ofBits .S 0)).trunc = none := by
  refine ⟨?_, ?_, ?_, ?_, ?_, rfl, ?_, rfl⟩ <;> decide

/-- A command with numbers, one without, and a refused one. -/
theorem witness_AnotherArithmeticKeepsTheShape :
    room8.wf = true ∧ (∃ t, exec (.qpk16S ⟨0x3F000000, 0, 0x3F800000⟩) room8 = .next t) ∧
      (∃ t, exec .upU8 room8 = .next t) ∧ mayDraw .upU8 = false ∧
      exec (.construct 3 0) room8 = .refused (.packet .illegalFpw) :=
  ⟨by decide, ⟨_, rfl⟩, ⟨_, rfl⟩, rfl, rfl⟩

end Sys2Proof.Tests
end

section
/-! The reference arithmetic's rounding (00_scope.md R16): what the integer steps compute, the place a number is
rounded at as a condition over the real numbers, and that a number rounded at its place is the nearest one. -/

namespace Sys2Proof.Machine

/-! ### The integer steps -/

theorem rne_eq (num den : Nat) :
    rne num den =
      if den < 2 * (num % den) ∨ (2 * (num % den) = den ∧ num / den % 2 = 1) then num / den + 1
      else num / den := by
  simp [rne]

/-- Settles O45, by the two branches of `rne` over `num = den * q + r`. -/
theorem rneIsNearestTiesToEven : Obligations.RneIsNearestTiesToEven := by
  intro num den hden
  have hdiv := Nat.div_add_mod num den
  have hmod := Nat.mod_lt num hden
  have hup : (num / den + 1) * den = den * (num / den) + den := by ring
  have hdown : num / den * den = den * (num / den) := Nat.mul_comm _ _
  rw [rne_eq]
  split
  · rw [hup]; omega
  · rw [hdown]; omega

theorem isqrtBits_bounds (n k acc : Nat) (hlo : acc * acc ≤ n)
    (hhi : n < (acc + 2 ^ k) * (acc + 2 ^ k)) :
    isqrtBits n k acc * isqrtBits n k acc ≤ n ∧
      n < (isqrtBits n k acc + 1) * (isqrtBits n k acc + 1) := by
  induction k generalizing acc with
  | zero => exact ⟨hlo, hhi⟩
  | succ k ih =>
    have hsplit : acc + 2 ^ (k + 1) = acc + 2 ^ k + 2 ^ k := by ring
    rw [isqrtBits]
    split
    · exact ih _ ‹_› (hsplit ▸ hhi)
    · exact ih _ hlo (not_le.1 ‹_›)

/-- Settles O46, by induction on the bits still to be found. -/
theorem squareRootOfAnInteger : Obligations.SquareRootOfAnInteger := by
  intro n
  refine isqrtBits_bounds n _ 0 (Nat.zero_le _) ?_
  calc n < 2 ^ (Nat.log2 n + 1) := Nat.lt_log2_self
    _ ≤ 2 ^ ((Nat.log2 n / 2 + 1) + (Nat.log2 n / 2 + 1)) :=
      Nat.pow_le_pow_right (by decide) (by omega)
    _ = _ := by rw [pow_add, zero_add]

/-! ### Powers of two -/

theorem two_zpow_eq_div (e : Int) : (2 : ℝ) ^ e = 2 ^ e.toNat / 2 ^ (-e).toNat := by
  rcases le_total 0 e with h | h
  · rw [show (-e).toNat = 0 by omega, pow_zero, div_one, ← zpow_natCast, Int.toNat_of_nonneg h]
  · rw [show e.toNat = 0 by omega, pow_zero, one_div, ← zpow_natCast,
      Int.toNat_of_nonneg (by omega : 0 ≤ -e), zpow_neg, inv_inv]

theorem two_zpow_pos (e : Int) : (0 : ℝ) < 2 ^ e := zpow_pos (by norm_num) e

theorem two_zpow_add_one (e : Int) : (2 : ℝ) ^ (e + 1) = 2 * 2 ^ e := by
  rw [zpow_add_one₀ (by norm_num), mul_comm]

theorem two_pow_prec (fmt : Fmt) : (2 : ℝ) ^ fmt.prec = 2 * 2 ^ (fmt.prec - 1) := by
  cases fmt <;> norm_num [Fmt.prec]

theorem two_zpow_le {a b : Int} (h : a ≤ b) : (2 : ℝ) ^ a ≤ 2 ^ b :=
  zpow_le_zpow_right₀ (by norm_num) h

/-- Scaling a fraction by a power of two, as `Fl.round` does it: above or below the line. -/
theorem scaled_fraction (num den : Nat) (e : Int) :
    ((num * 2 ^ (-e).toNat : Nat) : ℝ) / ((den * 2 ^ e.toNat : Nat) : ℝ)
      = (num : ℝ) / den / 2 ^ e := by
  rw [two_zpow_eq_div]
  push_cast
  field_simp

/-- `ratLog2` is the floor of the base-2 logarithm. -/
theorem ratLog2_bounds {num den : Nat} (hn : 0 < num) (hd : 0 < den) :
    (2 : ℝ) ^ ratLog2 num den ≤ (num : ℝ) / den ∧
      (num : ℝ) / den < 2 ^ (ratLog2 num den + 1) := by
  have hd' : (0 : ℝ) < den := by exact_mod_cast hd
  have hn1 : (2 : ℝ) ^ (Nat.log2 num : Int) ≤ num := by
    exact_mod_cast Nat.log2_self_le hn.ne'
  have hn2 : (num : ℝ) < 2 * 2 ^ (Nat.log2 num : Int) := by
    rw [← two_zpow_add_one]; exact_mod_cast (Nat.lt_log2_self (n := num))
  have hd1 : (2 : ℝ) ^ (Nat.log2 den : Int) ≤ den := by
    exact_mod_cast Nat.log2_self_le hd.ne'
  have hd2 : (den : ℝ) < 2 * 2 ^ (Nat.log2 den : Int) := by
    rw [← two_zpow_add_one]; exact_mod_cast (Nat.lt_log2_self (n := den))
  obtain ⟨k, hk⟩ : ∃ k : Int, k = (Nat.log2 num : Int) - (Nat.log2 den : Int) := ⟨_, rfl⟩
  have hpow : (2 : ℝ) ^ (Nat.log2 num : Int) = 2 ^ k * 2 ^ (Nat.log2 den : Int) := by
    rw [← zpow_add₀ (by norm_num), hk, sub_add_cancel]
  have hkp := two_zpow_pos k
  have hcmp : den * 2 ^ k.toNat ≤ num * 2 ^ (-k).toNat ↔ (2 : ℝ) ^ k ≤ (num : ℝ) / den := by
    have hb : (0 : ℝ) < 2 ^ (-k).toNat := by positivity
    rw [two_zpow_eq_div, div_le_div_iff₀ hb hd', mul_comm ((2 : ℝ) ^ k.toNat)]
    exact_mod_cast Iff.rfl
  have hdef : ratLog2 num den = if den * 2 ^ k.toNat ≤ num * 2 ^ (-k).toNat then k else k - 1 := by
    rw [hk]; rfl
  rw [hdef]
  split
  · refine ⟨hcmp.1 ‹_›, ?_⟩
    rw [two_zpow_add_one, div_lt_iff₀ hd']
    nlinarith
  · have hlt := not_le.1 (mt hcmp.2 ‹_›)
    rw [sub_add_cancel]
    refine ⟨?_, hlt⟩
    have hhalf : (2 : ℝ) ^ k = 2 * 2 ^ (k - 1) := by rw [← two_zpow_add_one, sub_add_cancel]
    have hpos := two_zpow_pos (k - 1)
    rw [le_div_iff₀ hd']
    nlinarith

/-! ### The place a number is rounded at -/

/-- `x` is rounded at the place `2^e` to `m` of them: the place is the format's for `x`, and `m` is the nearest
number of places, the even one of two. `m` can be `2^prec`, which `Fl.ofPlaces` normalises. -/
structure RoundsAtPlace (fmt : Fmt) (x : ℝ) (m : Nat) (e : Int) : Prop where
  eMin_le : fmt.eMin ≤ e
  lt_top : x < 2 ^ fmt.prec * 2 ^ e
  normal : 2 ^ (fmt.prec - 1) * 2 ^ e ≤ x ∨ e = fmt.eMin
  below : (2 * m - 1) * 2 ^ (e - 1) ≤ x
  above : x ≤ (2 * m + 1) * 2 ^ (e - 1)
  tie : x = (2 * m - 1) * 2 ^ (e - 1) ∨ x = (2 * m + 1) * 2 ^ (e - 1) → m % 2 = 0

/-- The last two steps of `Fl.round`: a significand that has grown a digit is normalised, and what is above the
largest exponent is infinity. -/
def Fl.ofPlaces (fmt : Fmt) (neg : Bool) (m : Nat) (e : Int) : Fl :=
  if m = 2 ^ fmt.prec then
    if fmt.eMax < e + 1 then .inf neg else .fin neg (2 ^ (fmt.prec - 1)) (e + 1)
  else if fmt.eMax < e then .inf neg else .fin neg m e

theorem two_zpow_pred (e : Int) : (2 : ℝ) ^ e = 2 * 2 ^ (e - 1) := by
  rw [← two_zpow_add_one, sub_add_cancel]

/-- `rne` over the real numbers, at the place `2^e`. -/
theorem rne_at_place {num den : Nat} (hd : 0 < den) (e : Int) {m : Nat}
    (hm : m = rne (num * 2 ^ (-e).toNat) (den * 2 ^ e.toNat)) :
    (2 * m - 1) * 2 ^ (e - 1) ≤ (num : ℝ) / den ∧ (num : ℝ) / den ≤ (2 * m + 1) * 2 ^ (e - 1) ∧
      ((num : ℝ) / den = (2 * m - 1) * 2 ^ (e - 1) ∨ (num : ℝ) / den = (2 * m + 1) * 2 ^ (e - 1) →
        m % 2 = 0) := by
  have hx := scaled_fraction num den e
  have hD : 0 < den * 2 ^ e.toNat := by positivity
  obtain ⟨hlo, hhi, htie⟩ := rneIsNearestTiesToEven (num * 2 ^ (-e).toNat) _ hD
  rw [← hm] at hlo hhi htie
  revert hx hD hlo hhi htie
  generalize num * 2 ^ (-e).toNat = N
  generalize den * 2 ^ e.toNat = D
  intro hx hD hlo hhi htie
  have hp := two_zpow_pos (e - 1)
  have hD' : (0 : ℝ) < D := by exact_mod_cast hD
  have hval : (num : ℝ) / den = 2 * (N / D) * 2 ^ (e - 1) := by
    rw [hx, two_zpow_pred e]; field_simp
  have hlo' : (2 * m - 1 : ℝ) ≤ 2 * (N / D) := by
    rw [← mul_div_assoc, le_div_iff₀ hD']
    have : (2 * (m * D) : ℝ) ≤ 2 * N + D := by exact_mod_cast hlo
    linarith
  have hhi' : 2 * (N / D) ≤ (2 * m + 1 : ℝ) := by
    rw [← mul_div_assoc, div_le_iff₀ hD']
    have : (2 * N : ℝ) ≤ 2 * (m * D) + D := by exact_mod_cast hhi
    linarith
  rw [hval]
  refine ⟨mul_le_mul_of_nonneg_right hlo' hp.le, mul_le_mul_of_nonneg_right hhi' hp.le, fun h => ?_⟩
  apply htie
  rcases h with h | h
  · left
    have := mul_right_cancel₀ hp.ne' h
    rw [← mul_div_assoc, div_eq_iff hD'.ne'] at this
    have : (2 * (m * D) : ℝ) = 2 * N + D := by linarith
    exact_mod_cast this
  · right
    have := mul_right_cancel₀ hp.ne' h
    rw [← mul_div_assoc, div_eq_iff hD'.ne'] at this
    have : (2 * N : ℝ) = 2 * (m * D) + D := by linarith
    exact_mod_cast this

/-- `Fl.round` rounds a positive fraction at its place. -/
theorem round_eq_ofPlaces (fmt : Fmt) (neg : Bool) {num den : Nat} (hn : 0 < num) (hd : 0 < den) :
    ∃ m e, RoundsAtPlace fmt ((num : ℝ) / den) m e ∧
      Fl.round fmt neg num den = Fl.ofPlaces fmt neg m e := by
  obtain ⟨e, he⟩ : ∃ e, e = max (ratLog2 num den - (fmt.prec - 1)) fmt.eMin := ⟨_, rfl⟩
  obtain ⟨m, hm⟩ : ∃ m, m = rne (num * 2 ^ (-e).toNat) (den * 2 ^ e.toNat) := ⟨_, rfl⟩
  obtain ⟨hlog, hlog'⟩ := ratLog2_bounds hn hd
  obtain ⟨hbelow, habove, htie⟩ := rne_at_place hd e hm
  have hpow : ∀ k : Nat, (2 : ℝ) ^ k * 2 ^ e = 2 ^ ((k : Int) + e) := fun k => by
    rw [zpow_add₀ (by norm_num), zpow_natCast]
  have hprec : ((fmt.prec - 1 : Nat) : Int) = (fmt.prec : Int) - 1 := by cases fmt <;> rfl
  refine ⟨m, e, ⟨he ▸ le_max_right _ _, ?_, ?_, hbelow, habove, htie⟩, ?_⟩
  · rw [hpow]
    exact hlog'.trans_le (two_zpow_le (by omega))
  · rw [hpow, hprec]
    rcases max_choice (ratLog2 num den - ((fmt.prec : Int) - 1)) fmt.eMin with h | h
    · exact .inl ((two_zpow_le (by omega)).trans hlog)
    · exact .inr (he.trans h)
  · unfold Fl.round Fl.ofPlaces
    rw [if_neg hn.ne']
    simp only [← he, ← hm, beq_iff_eq]
    split <;> rfl

/-! ### The number rounded at its place is the nearest one -/

/-- A number of the format on the places `2^e` or coarser is a whole number of places. -/
theorem whole_places {e e' : Int} (h : e ≤ e') (m : Nat) :
    (m : ℝ) * 2 ^ e' = ((m * 2 ^ (e' - e).toNat : Nat) : ℝ) * 2 ^ e := by
  have hpow : (2 : ℝ) ^ e' = 2 ^ (e' - e).toNat * 2 ^ e := by
    rw [← zpow_natCast, ← zpow_add₀ (by norm_num), Int.toNat_of_nonneg (by omega), sub_add_cancel]
  rw [hpow]
  push_cast
  ring

section
variable {fmt : Fmt} {x : ℝ} {m : Nat} {e : Int}

/-- The rounded significand is at most a digit too long. -/
theorem RoundsAtPlace.le_pow (h : RoundsAtPlace fmt x m e) : m ≤ 2 ^ fmt.prec := by
  have hp := two_zpow_pos (e - 1)
  have hlt : (2 * m - 1 : ℝ) * 2 ^ (e - 1) < 2 * 2 ^ fmt.prec * 2 ^ (e - 1) := by
    calc _ ≤ x := h.below
      _ < 2 ^ fmt.prec * 2 ^ e := h.lt_top
      _ = _ := by rw [two_zpow_pred e]; ring
  have hlt' : (2 * m - 1 : ℝ) < 2 * 2 ^ fmt.prec := lt_of_mul_lt_mul_right hlt hp.le
  have : 2 * m < 2 * 2 ^ fmt.prec + 1 := by
    have h2 : (2 * m : ℝ) < 2 * 2 ^ fmt.prec + 1 := by linarith
    exact_mod_cast h2
  omega

/-- Away from the smallest place all digits are used. -/
theorem RoundsAtPlace.pow_le (h : RoundsAtPlace fmt x m e) (he : e ≠ fmt.eMin) :
    2 ^ (fmt.prec - 1) ≤ m := by
  have hp := two_zpow_pos (e - 1)
  have hle : 2 * 2 ^ (fmt.prec - 1) * 2 ^ (e - 1) ≤ (2 * m + 1 : ℝ) * 2 ^ (e - 1) := by
    calc _ = 2 ^ (fmt.prec - 1) * 2 ^ e := by rw [two_zpow_pred e]; ring
      _ ≤ x := h.normal.resolve_right he
      _ ≤ _ := h.above
  have : 2 * 2 ^ (fmt.prec - 1) ≤ 2 * m + 1 := by exact_mod_cast le_of_mul_le_mul_right hle hp
  omega

theorem RoundsAtPlace.dist_le (h : RoundsAtPlace fmt x m e) : |x - m * 2 ^ e| ≤ 2 ^ (e - 1) := by
  have h1 := h.below
  have h2 := h.above
  rw [two_zpow_pred e, abs_le]
  constructor <;> linarith

/-- Half a place away is a tie, and then `m` is even. -/
theorem RoundsAtPlace.even_of_abs_eq (h : RoundsAtPlace fmt x m e)
    (ht : |x - m * 2 ^ e| = 2 ^ (e - 1)) : m % 2 = 0 := by
  rw [two_zpow_pred e] at ht
  apply h.tie
  rcases (abs_eq (two_zpow_pos _).le).1 ht with h1 | h1
  · right; linarith
  · left; linarith

/-- No other whole number of places is nearer, and one as near makes `m` even. -/
theorem RoundsAtPlace.nearest_whole (h : RoundsAtPlace fmt x m e) {k : Nat} (hk : k ≠ m) :
    |x - m * 2 ^ e| ≤ |x - k * 2 ^ e| ∧ (|x - m * 2 ^ e| = |x - k * 2 ^ e| → m % 2 = 0) := by
  have hhalf := h.dist_le
  have hgap : (2 : ℝ) ^ (e - 1) ≤ |x - k * 2 ^ e| := by
    have hone : (1 : ℝ) ≤ |(k : ℝ) - m| := by
      have : (1 : Int) ≤ |(k : Int) - m| := Int.one_le_abs (by omega)
      exact_mod_cast this
    have hsplit : |(k : ℝ) - m| * 2 ^ e ≤ |x - m * 2 ^ e| + |x - k * 2 ^ e| := by
      calc |(k : ℝ) - m| * 2 ^ e = |(x - m * 2 ^ e) - (x - k * 2 ^ e)| := by
            rw [show (x - m * 2 ^ e) - (x - k * 2 ^ e) = ((k : ℝ) - m) * 2 ^ e by ring,
              abs_mul, abs_of_pos (two_zpow_pos e)]
        _ ≤ _ := abs_sub _ _
    have hp := two_zpow_pos (e - 1)
    rw [two_zpow_pred e] at hsplit hhalf ⊢
    nlinarith
  exact ⟨hhalf.trans hgap, fun ht => h.even_of_abs_eq (le_antisymm hhalf (ht ▸ hgap))⟩

/-- A number below every number of `prec` digits at this place is further away. -/
theorem RoundsAtPlace.finer_is_further (h : RoundsAtPlace fmt x m e) (he : e ≠ fmt.eMin) {y : ℝ}
    (hy : y < 2 ^ (fmt.prec - 1) * 2 ^ e) : |x - m * 2 ^ e| < |x - y| := by
  have hx := h.normal.resolve_right he
  have hle : |x - m * 2 ^ e| ≤ |x - 2 ^ (fmt.prec - 1) * 2 ^ e| := by
    rcases eq_or_ne (2 ^ (fmt.prec - 1)) m with hm | hm
    · rw [← hm]; push_cast; rfl
    · simpa using (h.nearest_whole hm).1
  rw [abs_of_nonneg (sub_nonneg.2 hx)] at hle
  rw [abs_of_pos (by linarith : 0 < x - y)]
  linarith

/-- No number of the format is nearer than the rounded one, and of two nearest ones the rounded one is even. -/
theorem RoundsAtPlace.nearest (h : RoundsAtPlace fmt x m e) {m' : Nat} {e' : Int}
    (hf : InFormat fmt m' e') :
    |x - m * 2 ^ e| ≤ |x - m' * 2 ^ e'| ∧
      (|x - m * 2 ^ e| = |x - m' * 2 ^ e'| → (m', e') ≠ (m, e) → m % 2 = 0) := by
  obtain ⟨hlt, hmin, -, hnormal⟩ := hf
  rcases lt_or_ge e' e with hfine | hcoarse
  · have hy : (m' : ℝ) * 2 ^ e' < 2 ^ (fmt.prec - 1) * 2 ^ e := by
      calc (m' : ℝ) * 2 ^ e' < 2 ^ fmt.prec * 2 ^ e' :=
            mul_lt_mul_of_pos_right (by exact_mod_cast hlt) (two_zpow_pos _)
        _ = 2 ^ (fmt.prec - 1) * 2 ^ (e' + 1) := by rw [two_pow_prec, two_zpow_add_one]; ring
        _ ≤ _ := mul_le_mul_of_nonneg_left (two_zpow_le hfine) (by positivity)
    have hfar := h.finer_is_further (by omega) hy
    exact ⟨hfar.le, fun heq => absurd heq hfar.ne⟩
  · rw [whole_places hcoarse m']
    rcases eq_or_ne (m' * 2 ^ (e' - e).toNat) m with hm | hm
    · rw [hm]
      refine ⟨le_rfl, fun _ hne => ?_⟩
      rcases hcoarse.eq_or_lt with rfl | hgt
      · simp at hm
        exact absurd (by rw [hm]) hne
      · obtain ⟨d, hd⟩ : ∃ d, (e' - e).toNat = d + 1 := ⟨(e' - e).toNat - 1, by omega⟩
        rw [← hm, hd, pow_succ, ← mul_assoc]
        exact Nat.mul_mod_left _ _
    · obtain ⟨hle, heven⟩ := h.nearest_whole hm
      exact ⟨hle, fun heq _ => heven heq⟩

/-! ### Overflow -/

theorem overflowAt_eq (fmt : Fmt) : (overflowAt fmt : ℝ) = (2 * 2 ^ fmt.prec - 1) * 2 ^ (fmt.eMax - 1) := by
  have := two_zpow_pred fmt.eMax
  unfold overflowAt
  push_cast
  rw [this]
  ring

theorem eMin_lt_eMax (fmt : Fmt) : fmt.eMin < fmt.eMax := by cases fmt <;> decide

/-- Above the largest place every number is at or above the threshold. -/
theorem RoundsAtPlace.overflow_of_eMax_lt (h : RoundsAtPlace fmt x m e) (he : fmt.eMax < e) :
    (overflowAt fmt : ℝ) ≤ x := by
  have hmin := eMin_lt_eMax fmt
  have hp := two_zpow_pos (fmt.eMax - 1)
  calc (overflowAt fmt : ℝ) ≤ 2 * 2 ^ fmt.prec * 2 ^ (fmt.eMax - 1) := by
        rw [overflowAt_eq]; linarith
    _ = 2 ^ (fmt.prec - 1) * 2 ^ (fmt.eMax + 1) := by
        rw [two_zpow_add_one, two_zpow_pred fmt.eMax, two_pow_prec]; ring
    _ ≤ 2 ^ (fmt.prec - 1) * 2 ^ e := mul_le_mul_of_nonneg_left (two_zpow_le he) (by positivity)
    _ ≤ x := h.normal.resolve_right (by omega)

/-- At the largest place the threshold is where the significand grows a digit. -/
theorem RoundsAtPlace.overflow_iff_of_eMax_eq (h : RoundsAtPlace fmt x m fmt.eMax) :
    (overflowAt fmt : ℝ) ≤ x ↔ m = 2 ^ fmt.prec := by
  have hp := two_zpow_pos (fmt.eMax - 1)
  rw [overflowAt_eq]
  constructor
  · intro hx
    by_contra hne
    have hm : m ≤ 2 ^ fmt.prec - 1 := by have := h.le_pow; omega
    have hm' : m + 1 ≤ 2 ^ fmt.prec := by have := Nat.two_pow_pos fmt.prec; omega
    have hmr : (m + 1 : ℝ) ≤ 2 ^ fmt.prec := by exact_mod_cast hm'
    have habove := h.above
    have hge : (2 * 2 ^ fmt.prec - 1 : ℝ) ≤ 2 * m + 1 :=
      le_of_mul_le_mul_right (hx.trans habove) hp
    have hmeq : (2 * m + 1 : ℝ) = 2 * 2 ^ fmt.prec - 1 := by linarith
    have heven : m % 2 = 0 := h.tie (.inr (le_antisymm habove (hmeq ▸ hx)))
    have hmn : m + 1 = 2 ^ fmt.prec := by
      have : (m + 1 : ℝ) = 2 ^ fmt.prec := by linarith
      exact_mod_cast this
    have hpe : 2 ^ fmt.prec % 2 = 0 := by cases fmt <;> decide
    omega
  · intro hm
    have := h.below
    rw [hm] at this
    exact_mod_cast this

/-- Below the largest place every number is below the threshold. -/
theorem RoundsAtPlace.lt_overflow_of_lt_eMax (h : RoundsAtPlace fmt x m e) (he : e < fmt.eMax) :
    x < (overflowAt fmt : ℝ) := by
  have hp := two_zpow_pos (fmt.eMax - 1)
  have hone : (1 : ℝ) ≤ 2 ^ fmt.prec := one_le_pow₀ (by norm_num)
  calc x < 2 ^ fmt.prec * 2 ^ e := h.lt_top
    _ ≤ 2 ^ fmt.prec * 2 ^ (fmt.eMax - 1) :=
      mul_le_mul_of_nonneg_left (two_zpow_le (by omega)) (by positivity)
    _ ≤ (overflowAt fmt : ℝ) := by rw [overflowAt_eq]; nlinarith

/-- A number rounded at its place is rounded. -/
theorem RoundsAtPlace.roundsTo (h : RoundsAtPlace fmt x m e) (neg : Bool) :
    RoundsTo fmt neg x (Fl.ofPlaces fmt neg m e) := by
  have hcarried : 2 ^ (fmt.prec - 1) < 2 ^ fmt.prec ∧ 2 ^ (fmt.prec - 1) % 2 = 0 := by
    cases fmt <;> decide
  unfold Fl.ofPlaces
  have hmin := h.eMin_le
  split
  next hm =>
    split
    next hbig =>
      refine .inl ⟨?_, rfl⟩
      rcases (Int.lt_add_one_iff.1 hbig).eq_or_lt with rfl | hlt
      · exact h.overflow_iff_of_eMax_eq.2 hm
      · exact h.overflow_of_eMax_lt hlt
    next hfit =>
      refine .inr ⟨h.lt_overflow_of_lt_eMax (by omega), _, _, rfl,
        ⟨hcarried.1, by omega, by omega, .inl le_rfl⟩, fun m' e' hf => ?_⟩
      have hsame : ((2 ^ (fmt.prec - 1) : Nat) : ℝ) * 2 ^ (e + 1) = (m : ℝ) * 2 ^ e := by
        rw [hm, two_zpow_add_one]; push_cast; rw [two_pow_prec]; ring
      rw [hsame]
      exact ⟨(h.nearest hf).1, fun _ _ => hcarried.2⟩
  next hm =>
    split
    next hbig => exact .inl ⟨h.overflow_of_eMax_lt hbig, rfl⟩
    next hfit =>
      have hlt : x < (overflowAt fmt : ℝ) := by
        rcases (not_lt.1 hfit).eq_or_lt with rfl | hlt
        · exact not_le.1 (mt h.overflow_iff_of_eMax_eq.1 hm)
        · exact h.lt_overflow_of_lt_eMax hlt
      refine .inr ⟨hlt, m, e, rfl, ⟨lt_of_le_of_ne h.le_pow hm, hmin, by omega, ?_⟩,
        fun m' e' hf => h.nearest hf⟩
      exact (ne_or_eq e fmt.eMin).imp h.pow_le id

end

/-- A zero is rounded to the zero with its sign. -/
theorem roundsTo_zero (fmt : Fmt) (neg : Bool) : RoundsTo fmt neg 0 (.fin neg 0 fmt.eMin) := by
  have hone : (1 : ℝ) ≤ 2 ^ fmt.prec := one_le_pow₀ (by norm_num)
  have hp := two_zpow_pos (fmt.eMax - 1)
  refine .inr ⟨?_, 0, fmt.eMin, rfl,
    ⟨by positivity, le_rfl, (eMin_lt_eMax fmt).le, .inr rfl⟩, fun m' e' _ => ⟨?_, fun _ _ => rfl⟩⟩
  · rw [overflowAt_eq]
    nlinarith
  · simpa using (by positivity : (0 : ℝ) ≤ m' * 2 ^ e')

/-- Settles O44: a positive fraction is rounded at its place. -/
theorem roundingGivesTheNearestValue : Obligations.RoundingGivesTheNearestValue := by
  intro fmt neg num den hd
  rcases Nat.eq_zero_or_pos num with rfl | hn
  · simpa [Fl.round] using roundsTo_zero fmt neg
  · obtain ⟨m, e, hplace, heq⟩ := round_eq_ofPlaces fmt neg hn hd
    exact heq ▸ hplace.roundsTo neg

end Sys2Proof.Machine
end

section
/-! The reference arithmetic's operations (00_scope.md R16): each is the exact result rounded once, and what NaN,
infinities and zeros give. -/

namespace Sys2Proof.Machine

/-! ### The arithmetic, one operation at a time -/

theorem round_roundsTo (fmt : Fmt) (neg : Bool) (num : Nat) {den : Nat} (hd : 0 < den) :
    RoundsTo fmt neg ((num : ℝ) / den) (Fl.round fmt neg num den) :=
  roundingGivesTheNearestValue fmt neg num den hd

theorem dyadic_eq_fraction (m : Nat) (e : Int) :
    (m : ℝ) * 2 ^ e = ((m * 2 ^ e.toNat : Nat) : ℝ) / ((2 ^ (-e).toNat : Nat) : ℝ) := by
  rw [two_zpow_eq_div]
  push_cast
  ring

theorem roundDyadic_roundsTo (fmt : Fmt) (neg : Bool) (m : Nat) (e : Int) :
    RoundsTo fmt neg (m * 2 ^ e) (Fl.roundDyadic fmt neg m e) := by
  rw [dyadic_eq_fraction]
  exact round_roundsTo fmt neg _ (by positivity)

theorem abs_signedValue (neg : Bool) (m : Nat) (e : Int) : |signedValue neg m e| = m * 2 ^ e := by
  have h : (0 : ℚ) ≤ m * 2 ^ e := by positivity
  cases neg <;> simp [signedValue, abs_mul]

theorem signedValue_not (neg : Bool) (m : Nat) (e : Int) :
    signedValue (!neg) m e = -signedValue neg m e := by
  cases neg <;> simp [signedValue]

theorem signedValue_eq_zero {neg : Bool} {m : Nat} {e : Int} : signedValue neg m e = 0 ↔ m = 0 := by
  rw [← abs_eq_zero, abs_signedValue]
  simp [(zpow_pos (by norm_num : (0 : ℚ) < 2) e).ne']

/-- `scaled` counts a finite value in places of `2^base`. -/
theorem signedValue_eq_scaled (neg : Bool) (m : Nat) {e base : Int} (h : base ≤ e) :
    signedValue neg m e = scaled neg m e base * 2 ^ base := by
  have hpow : (2 : ℚ) ^ e = 2 ^ (e - base).toNat * 2 ^ base := by
    rw [← zpow_natCast, ← zpow_add₀ (by norm_num), Int.toNat_of_nonneg (by omega), sub_add_cancel]
  cases neg <;> simp [signedValue, scaled, hpow] <;> ring

section
variable (fmt : Fmt) (n1 n2 : Bool) (m1 m2 : Nat) (e1 e2 : Int)

/-- The whole number of places that `fadd` rounds: the exact sum. -/
theorem sum_eq_scaled :
    signedValue n1 m1 e1 + signedValue n2 m2 e2 =
      ((scaled n1 m1 e1 (min e1 e2) + scaled n2 m2 e2 (min e1 e2) : Int) : ℚ) * 2 ^ min e1 e2 := by
  rw [signedValue_eq_scaled n1 m1 (min_le_left e1 e2), signedValue_eq_scaled n2 m2 (min_le_right e1 e2)]
  push_cast
  ring

theorem fadd_fin :
    fadd fmt (.fin n1 m1 e1) (.fin n2 m2 e2) =
      if scaled n1 m1 e1 (min e1 e2) + scaled n2 m2 e2 (min e1 e2) = 0 then
        .fin (n1 && n2) 0 fmt.eMin
      else
        Fl.roundDyadic fmt
          (decide (scaled n1 m1 e1 (min e1 e2) + scaled n2 m2 e2 (min e1 e2) < 0))
          (scaled n1 m1 e1 (min e1 e2) + scaled n2 m2 e2 (min e1 e2)).natAbs (min e1 e2) := rfl

/-- The sum of two finite values: rounded once, and `+0` for an exact zero unless both are negative zeros. -/
theorem fadd_roundsTo :
    (signedValue n1 m1 e1 + signedValue n2 m2 e2 ≠ 0 →
      RoundsTo fmt (decide (signedValue n1 m1 e1 + signedValue n2 m2 e2 < 0))
        ((|signedValue n1 m1 e1 + signedValue n2 m2 e2| : ℚ) : ℝ)
        (fadd fmt (.fin n1 m1 e1) (.fin n2 m2 e2))) ∧
    (signedValue n1 m1 e1 + signedValue n2 m2 e2 = 0 →
      fadd fmt (.fin n1 m1 e1) (.fin n2 m2 e2) = .fin (n1 && n2) 0 fmt.eMin) := by
  rw [fadd_fin, sum_eq_scaled]
  generalize scaled n1 m1 e1 (min e1 e2) + scaled n2 m2 e2 (min e1 e2) = i
  generalize min e1 e2 = e
  have hp : (0 : ℚ) < 2 ^ e := zpow_pos (by norm_num) e
  have hzero : (i : ℚ) * 2 ^ e = 0 ↔ i = 0 := by simp [hp.ne']
  have hneg : (i : ℚ) * 2 ^ e < 0 ↔ i < 0 := by simp [mul_neg_iff, hp, hp.le]
  have habs : ((|(i : ℚ) * 2 ^ e| : ℚ) : ℝ) = (i.natAbs : ℝ) * 2 ^ e := by
    rw [abs_mul, abs_of_pos hp, Nat.cast_natAbs]
    push_cast
    rfl
  constructor
  · intro hne
    rw [if_neg (mt hzero.2 hne), habs, decide_eq_decide.2 hneg]
    exact roundDyadic_roundsTo fmt _ _ _
  · intro heq
    rw [if_pos (hzero.1 heq)]

theorem fmul_roundsTo :
    RoundsTo fmt (n1 ^^ n2) ((|signedValue n1 m1 e1 * signedValue n2 m2 e2| : ℚ) : ℝ)
      (fmul fmt (.fin n1 m1 e1) (.fin n2 m2 e2)) := by
  have hx : ((|signedValue n1 m1 e1 * signedValue n2 m2 e2| : ℚ) : ℝ)
      = ((m1 * m2 : Nat) : ℝ) * 2 ^ (e1 + e2) := by
    rw [abs_mul, abs_signedValue, abs_signedValue, zpow_add₀ (by norm_num)]
    push_cast
    ring
  rw [hx]
  exact roundDyadic_roundsTo fmt _ _ _

theorem fdiv_roundsTo (hy : signedValue n2 m2 e2 ≠ 0) :
    RoundsTo fmt (n1 ^^ n2) ((|signedValue n1 m1 e1 / signedValue n2 m2 e2| : ℚ) : ℝ)
      (fdiv fmt (.fin n1 m1 e1) (.fin n2 m2 e2)) := by
  have hm2 : m2 ≠ 0 := mt signedValue_eq_zero.2 hy
  have hdiv : fdiv fmt (.fin n1 m1 e1) (.fin n2 m2 e2) = Fl.round fmt (n1 ^^ n2)
      (m1 * 2 ^ (-(e2 - e1)).toNat) (m2 * 2 ^ (e2 - e1).toNat) := by
    simp only [fdiv, if_neg hm2, neg_sub]
  have hx : ((|signedValue n1 m1 e1 / signedValue n2 m2 e2| : ℚ) : ℝ)
      = ((m1 * 2 ^ (-(e2 - e1)).toNat : Nat) : ℝ) / ((m2 * 2 ^ (e2 - e1).toNat : Nat) : ℝ) := by
    rw [scaled_fraction, abs_div, abs_signedValue, abs_signedValue, zpow_sub₀ (by norm_num)]
    push_cast
    field_simp
  rw [hdiv, hx]
  exact round_roundsTo fmt _ _ (by positivity)

end

/-! ### The square root

`fsqrt` rounds `(2r + sticky) * 2^(k-1)` in place of the root. No multiple of `2^k` tells the two apart, and
the place the number is rounded at, with its half, is such a multiple. -/

/-- No multiple of `2^k` tells the two numbers apart. -/
def SameMultiples (k : Int) (x y : ℝ) : Prop :=
  ∀ j : Int, ((j : ℝ) * 2 ^ k ≤ x ↔ (j : ℝ) * 2 ^ k ≤ y) ∧
    (x ≤ (j : ℝ) * 2 ^ k ↔ y ≤ (j : ℝ) * 2 ^ k)

/-- Two numbers strictly between the same neighbouring multiples of `2^k`. -/
theorem SameMultiples.of_between {k r : Int} {x y : ℝ} (hx : r * (2 : ℝ) ^ k < x)
    (hx' : x < (r + 1) * (2 : ℝ) ^ k) (hy : r * (2 : ℝ) ^ k < y) (hy' : y < (r + 1) * (2 : ℝ) ^ k) :
    SameMultiples k x y := by
  have hp := two_zpow_pos k
  have hlow : ∀ {z : ℝ} {j : Int}, j ≤ r → r * (2 : ℝ) ^ k < z → j * (2 : ℝ) ^ k < z := fun hj hz =>
    (mul_le_mul_of_nonneg_right (by exact_mod_cast hj) hp.le).trans_lt hz
  have hhigh : ∀ {z : ℝ} {j : Int}, r + 1 ≤ j → z < (r + 1) * (2 : ℝ) ^ k → z < j * (2 : ℝ) ^ k :=
    fun hj hz => hz.trans_le (mul_le_mul_of_nonneg_right (by exact_mod_cast hj) hp.le)
  intro j
  rcases le_or_gt j r with hj | hj
  · exact ⟨iff_of_true (hlow hj hx).le (hlow hj hy).le,
      iff_of_false (hlow hj hx).not_ge (hlow hj hy).not_ge⟩
  · exact ⟨iff_of_false (hhigh hj hx').not_ge (hhigh hj hy').not_ge,
      iff_of_true (hhigh hj hx').le (hhigh hj hy').le⟩

/-- A multiple of a coarser power is a multiple of a finer one. -/
theorem SameMultiples.coarser {k l : Int} {x y : ℝ} (h : SameMultiples k x y) (hl : k ≤ l) :
    SameMultiples l x y := by
  have hpow : (2 : ℝ) ^ l = 2 ^ (l - k).toNat * 2 ^ k := by
    rw [← zpow_natCast, ← zpow_add₀ (by norm_num), Int.toNat_of_nonneg (by omega), sub_add_cancel]
  intro j
  have := h (j * 2 ^ (l - k).toNat)
  push_cast at this
  rwa [mul_assoc, ← hpow] at this

/-- Numbers that half a place does not tell apart are rounded at the same place to the same number. -/
theorem RoundsAtPlace.of_sameMultiples {fmt : Fmt} {x y : ℝ} {m : Nat} {e : Int}
    (h : RoundsAtPlace fmt y m e) (hs : SameMultiples (e - 1) x y) : RoundsAtPlace fmt x m e := by
  have hwhole : ∀ n : Nat, (2 : ℝ) ^ n * 2 ^ e = ((2 * 2 ^ n : Int) : ℝ) * 2 ^ (e - 1) := fun n => by
    rw [two_zpow_pred e]; push_cast; ring
  have hbelow := hs (2 * m - 1)
  have habove := hs (2 * m + 1)
  push_cast at hbelow habove
  have heq : ∀ {b : ℝ}, ((b ≤ x ↔ b ≤ y) ∧ (x ≤ b ↔ y ≤ b)) → x = b → y = b := fun hb hx =>
    le_antisymm (hb.2.1 hx.le) (hb.1.1 hx.ge)
  refine ⟨h.eMin_le, ?_, ?_, hbelow.1.2 h.below, habove.2.2 h.above, fun ht => h.tie ?_⟩
  · have := h.lt_top
    rw [hwhole] at this ⊢
    exact not_le.1 (mt (hs _).1.1 (not_le.2 this))
  · have := h.normal
    rw [hwhole] at this ⊢
    exact this.imp_left (hs _).1.2
  · exact ht.imp (heq hbelow) (heq habove)

/-- The fraction of `Fl.roundDyadic` at its place. -/
theorem roundDyadic_eq_ofPlaces (fmt : Fmt) (neg : Bool) {m : Nat} (hm : 0 < m) (e : Int) :
    ∃ m' e', RoundsAtPlace fmt (m * 2 ^ e) m' e' ∧
      Fl.roundDyadic fmt neg m e = Fl.ofPlaces fmt neg m' e' := by
  have h := round_eq_ofPlaces fmt neg (num := m * 2 ^ e.toNat) (den := 2 ^ (-e).toNat)
    (by positivity) (by positivity)
  rwa [← dyadic_eq_fraction] at h

/-- An integer root with a sticky bit rounds as the root does, where the integer root has enough digits. -/
theorem roundDyadic_sticky_roundsTo (fmt : Fmt) {n r : Nat} (k : Int) (hr : r * r ≤ n)
    (hr' : n < (r + 1) * (r + 1)) (hbig : 2 ^ fmt.prec ≤ r) :
    RoundsTo fmt false (√n * 2 ^ k)
      (Fl.roundDyadic fmt false (2 * r + if r * r = n then 0 else 1) (k - 1)) := by
  have hk := two_zpow_pos k
  have hpred := two_zpow_pred k
  split
  next heq =>
    have hroot : √(n : ℝ) * 2 ^ k = ((2 * r + 0 : Nat) : ℝ) * 2 ^ (k - 1) := by
      rw [← heq, hpred]
      push_cast
      rw [Real.sqrt_mul_self (Nat.cast_nonneg r)]
      ring
    rw [hroot]
    exact roundDyadic_roundsTo fmt false _ _
  next hne =>
    have hlt : r * r < n := lt_of_le_of_ne hr hne
    have hroot : (r : ℝ) < √n := Real.lt_sqrt_of_sq_lt (by rw [sq]; exact_mod_cast hlt)
    have hroot' : √(n : ℝ) < r + 1 :=
      (Real.sqrt_lt' (by positivity)).2 (by rw [sq]; exact_mod_cast hr')
    obtain ⟨m, e, hplace, heq⟩ := roundDyadic_eq_ofPlaces fmt false (Nat.succ_pos (2 * r)) (k - 1)
    have hy : ((2 * r + 1 : Nat) : ℝ) * 2 ^ (k - 1) = (r + 1 / 2) * 2 ^ k := by
      rw [hpred]; push_cast; ring
    have hfine : k ≤ e - 1 := by
      have hpos := two_zpow_pos e
      have hbig' : (2 : ℝ) ^ fmt.prec ≤ r := by exact_mod_cast hbig
      have htop := hplace.lt_top
      rw [Nat.succ_eq_add_one, hy] at htop
      have : (2 : ℝ) ^ k < 2 ^ e := by
        have hp : (0 : ℝ) < 2 ^ fmt.prec := by positivity
        nlinarith
      have := (zpow_lt_zpow_iff_right₀ (by norm_num : (1 : ℝ) < 2)).1 this
      omega
    have hsame : SameMultiples k (√n * 2 ^ k) (((2 * r + 1 : Nat) : ℝ) * 2 ^ (k - 1)) := by
      rw [hy]
      apply SameMultiples.of_between (r := r) <;> push_cast <;>
        exact mul_lt_mul_of_pos_right (by linarith) hk
    rw [heq]
    exact (hplace.of_sameMultiples (hsame.coarser hfine)).roundsTo false

/-- The square root of a value without a minus sign, rounded once. -/
theorem fsqrt_roundsTo (fmt : Fmt) (m : Nat) (e : Int) :
    RoundsTo fmt false (√(m * 2 ^ e)) (fsqrt fmt (.fin false m e)) := by
  rcases Nat.eq_zero_or_pos m with rfl | hm
  · simpa [fsqrt] using roundsTo_zero fmt false
  · obtain ⟨odd, hodd⟩ : ∃ odd, odd = (e % 2).toNat := ⟨_, rfl⟩
    obtain ⟨k, hk⟩ : ∃ k : Int, k = (e - odd) / 2 - (fmt.prec + 2) := ⟨_, rfl⟩
    obtain ⟨n, hn⟩ : ∃ n, n = m * 2 ^ (odd + 2 * (fmt.prec + 2)) := ⟨_, rfl⟩
    obtain ⟨hr, hr'⟩ := squareRootOfAnInteger n
    have hroot : √((m : ℝ) * 2 ^ e) = √n * 2 ^ k := by
      have hpow : (2 : ℝ) ^ e = 2 ^ (odd + 2 * (fmt.prec + 2)) * (2 ^ k) ^ 2 := by
        rw [← zpow_natCast, ← zpow_natCast, ← zpow_mul, ← zpow_add₀ (by norm_num)]
        congr 1
        push_cast
        omega
      rw [hpow, ← mul_assoc, Real.sqrt_mul (by positivity), Real.sqrt_sq (two_zpow_pos k).le, hn]
      push_cast
      rfl
    have hbig : 2 ^ fmt.prec ≤ isqrt n := by
      have hsq : 2 ^ (fmt.prec + 2) * 2 ^ (fmt.prec + 2) ≤ n := by
        rw [hn, ← pow_add]
        exact (Nat.pow_le_pow_right (by decide) (by omega)).trans (Nat.le_mul_of_pos_left _ hm)
      have hlt := Nat.mul_self_lt_mul_self_iff.1 (hsq.trans_lt hr')
      rw [pow_add] at hlt
      omega
    have hsqrt : fsqrt fmt (.fin false m e) =
        Fl.roundDyadic fmt false (2 * isqrt n + if isqrt n * isqrt n = n then 0 else 1) (k - 1) := by
      simp only [fsqrt, if_neg hm.ne', Bool.false_eq_true, if_false, ← hodd, ← hn, ← hk]
    rw [hroot, hsqrt]
    exact roundDyadic_sticky_roundsTo fmt k hr hr' hbig

/-- Settles O55, an operation at a time. -/
theorem floatOperationsRoundOnce : Obligations.FloatOperationsRoundOnce := by
  intro fmt n1 n2 m1 m2 e1 e2 a b x y
  obtain ⟨hadd, hadd'⟩ := fadd_roundsTo fmt n1 n2 m1 m2 e1 e2
  obtain ⟨hsub, hsub'⟩ := fadd_roundsTo fmt n1 (!n2) m1 m2 e1 e2
  rw [signedValue_not, ← sub_eq_add_neg] at hsub hsub'
  refine ⟨hadd, hadd', hsub, hsub', fmul_roundsTo fmt n1 n2 m1 m2 e1 e2,
    fdiv_roundsTo fmt n1 n2 m1 m2 e1 e2, ?_, ?_, fun hm2 => round_roundsTo fmt false m1 hm2⟩
  · intro hpos
    have hx : (x : ℝ) = m1 * 2 ^ e1 := by simp [x, signedValue, hpos]
    rw [hx, show a = .fin false m1 e1 from hpos ▸ rfl]
    exact fsqrt_roundsTo fmt m1 e1
  · simpa [cvt] using round_roundsTo fmt false m1 Nat.one_pos

/-! ### NaN, infinities and zeros -/

/-- Settles O56: an operand that decides the result by itself is one arm of the operation. -/
theorem specialFloatResults : Obligations.SpecialFloatResults := by
  intro fmt a g h m e e'
  refine ⟨?_, ?_, ?_, ?_, rfl, rfl⟩
  · cases a <;> exact ⟨rfl, rfl, rfl, rfl, rfl, rfl, rfl, rfl, rfl⟩
  · cases g <;> exact ⟨rfl, rfl, rfl, rfl, rfl, rfl, rfl, fun hm => by simp [fsqrt, hm]⟩
  · intro hm
    simp [fdiv, hm]
  · cases g <;> exact ⟨rfl, rfl, rfl, rfl, rfl, rfl, rfl, fun hm => by simp [fmul, hm],
      fun hm => by simp [fmul, hm], rfl, rfl⟩

end Sys2Proof.Machine
end

section
/-! The patterns of floating-point values (00_scope.md R16, 93_implementation_defined.md G5): the three fields of a
pattern, and that the pattern of a pattern's value is the pattern again. -/

namespace Sys2Proof.Machine

/-- The fraction field of a pattern. -/
def fracField (fmt : Fmt) (b : Op) : Nat := b.toNat % 2 ^ (fmt.prec - 1)

/-- The exponent field of a pattern. -/
def expField (fmt : Fmt) (b : Op) : Nat := b.toNat / 2 ^ (fmt.prec - 1) % 2 ^ fmt.expBits

/-- The sign of a pattern. -/
def signField (fmt : Fmt) (b : Op) : Bool := b.getLsbD (fmt.width - 1)

theorem ofBits_eq (fmt : Fmt) (b : Op) :
    Fl.ofBits fmt b =
      if expField fmt b = 2 ^ fmt.expBits - 1 then
        if fracField fmt b = 0 then .inf (signField fmt b) else .nan
      else if expField fmt b = 0 then .fin (signField fmt b) (fracField fmt b) fmt.eMin
      else .fin (signField fmt b) (2 ^ (fmt.prec - 1) + fracField fmt b)
        (fmt.eMin + expField fmt b - 1) := rfl

theorem fracField_lt (fmt : Fmt) (b : Op) : fracField fmt b < 2 ^ (fmt.prec - 1) :=
  Nat.mod_lt _ (by positivity)

theorem signField_toNat (fmt : Fmt) (b : Op) :
    (signField fmt b).toNat = b.toNat / 2 ^ (fmt.width - 1) % 2 := by
  rw [signField, BitVec.getLsbD, Nat.testBit_eq_decide_div_mod_eq]
  rcases Nat.mod_two_eq_zero_or_one (b.toNat / 2 ^ (fmt.width - 1)) with h | h <;> simp [h]

/-- A pattern is its three fields, one above the other. -/
theorem fieldsToBits_fields (fmt : Fmt) (b : Op) :
    fieldsToBits fmt (signField fmt b) (expField fmt b) (fracField fmt b) =
      BitVec.ofNat 64 (b.toNat % 2 ^ fmt.width) := by
  rw [fieldsToBits, signField_toNat, expField, fracField]
  congr 1
  cases fmt <;> simp only [Fmt.width, Fmt.prec, Fmt.expBits] <;> omega

/-- The bits of a pattern below its format's width. -/
theorem fieldsToBits_toNat (fmt : Fmt) (neg : Bool) {ex frac : Nat} (hex : ex < 2 ^ fmt.expBits)
    (hfrac : frac < 2 ^ (fmt.prec - 1)) :
    (fieldsToBits fmt neg ex frac).toNat =
        neg.toNat * 2 ^ (fmt.width - 1) + ex * 2 ^ (fmt.prec - 1) + frac ∧
      (fieldsToBits fmt neg ex frac).toNat < 2 ^ fmt.width := by
  have hneg := Bool.toNat_lt neg
  rw [fieldsToBits, BitVec.toNat_ofNat]
  cases fmt <;> simp only [Fmt.width, Fmt.prec, Fmt.expBits] at * <;> omega

theorem fracField_fieldsToBits (fmt : Fmt) (neg : Bool) {ex frac : Nat} (hex : ex < 2 ^ fmt.expBits)
    (hfrac : frac < 2 ^ (fmt.prec - 1)) : fracField fmt (fieldsToBits fmt neg ex frac) = frac := by
  rw [fracField, (fieldsToBits_toNat fmt neg hex hfrac).1]
  cases fmt <;> simp only [Fmt.width, Fmt.prec] at * <;> omega

theorem expField_fieldsToBits (fmt : Fmt) (neg : Bool) {ex frac : Nat} (hex : ex < 2 ^ fmt.expBits)
    (hfrac : frac < 2 ^ (fmt.prec - 1)) : expField fmt (fieldsToBits fmt neg ex frac) = ex := by
  rw [expField, (fieldsToBits_toNat fmt neg hex hfrac).1]
  cases fmt <;> simp only [Fmt.width, Fmt.prec, Fmt.expBits] at * <;> omega

/-- The pattern of a pattern's value is the pattern's low bits. -/
theorem toBits_ofBits (fmt : Fmt) (free : BitVec 64) (b : Op) (h : Fl.ofBits fmt b ≠ .nan) :
    (Fl.ofBits fmt b).toBits fmt free = BitVec.ofNat 64 (b.toNat % 2 ^ fmt.width) := by
  have hfrac := fracField_lt fmt b
  rw [← fieldsToBits_fields, ofBits_eq] at *
  split at h
  next htop =>
    split at h
    next hzero => simp [htop, hzero, Fl.toBits]
    next => exact absurd rfl h
  next htop =>
    rw [if_neg htop]
    split
    next hsub => rw [Fl.toBits, if_pos hfrac, hsub]
    next hnorm =>
      have hexp : (fmt.eMin + (expField fmt b : Int) - 1 - fmt.eMin + 1).toNat = expField fmt b := by
        omega
      rw [Fl.toBits, if_neg (by omega), hexp, Nat.add_sub_cancel_left]

/-- The fraction of a made NaN pattern is not zero. -/
theorem nanBits_eq (fmt : Fmt) (free : BitVec 64) :
    ∃ neg frac, 0 < frac ∧ frac < 2 ^ (fmt.prec - 1) ∧
      nanBits fmt free = fieldsToBits fmt neg (2 ^ fmt.expBits - 1) frac := by
  have hlt : free.toNat % 2 ^ (fmt.prec - 1) < 2 ^ (fmt.prec - 1) := Nat.mod_lt _ (by positivity)
  have hone : 1 < 2 ^ (fmt.prec - 1) := by cases fmt <;> decide
  refine ⟨_, _, ?_, ?_, rfl⟩ <;> split <;> omega

/-- Every made NaN pattern is a NaN pattern of its format. -/
theorem nanBits_is_nan (fmt : Fmt) (free : BitVec 64) :
    Fl.ofBits fmt (nanBits fmt free) = .nan ∧ (nanBits fmt free).toNat < 2 ^ fmt.width := by
  obtain ⟨neg, frac, hpos, hfrac, heq⟩ := nanBits_eq fmt free
  have hex : 2 ^ fmt.expBits - 1 < 2 ^ fmt.expBits := Nat.sub_lt (by positivity) Nat.one_pos
  rw [heq]
  refine ⟨?_, (fieldsToBits_toNat fmt neg hex hfrac).2⟩
  rw [ofBits_eq, expField_fieldsToBits fmt neg hex hfrac, fracField_fieldsToBits fmt neg hex hfrac,
    if_pos rfl, if_neg hpos.ne']

/-- Settles O47: the fields of a pattern are those of its value's pattern, in both formats. -/
theorem floatPatternsRoundTrip : Obligations.FloatPatternsRoundTrip := by
  intro b
  refine ⟨fun h => ?_, fun h => ?_, (nanBits_is_nan .S b).1, (nanBits_is_nan .S b).2,
    (nanBits_is_nan .D b).1⟩
  · rw [toBits_ofBits .S 0 b h]
    apply BitVec.eq_of_toNat_eq
    simp [Fmt.width]
  · rw [toBits_ofBits .D 0 b h, Nat.mod_eq_of_lt (show b.toNat < 2 ^ Fmt.D.width from b.isLt),
      BitVec.ofNat_toNat, BitVec.setWidth_eq]

end Sys2Proof.Machine
end

section
/-! Which commands compute with numbers, and what such a command does whatever the arithmetic (00_scope.md R9, R17;
43_quantization.md R172; 44_bitpack.md R212): it packs bytes or unpacks words whose number the command alone
fixes, and every other command does not read the arithmetic. -/

namespace Sys2Proof.Machine

/-! ### Draws -/

theorem settleCode_draws (n : Nat) (c : Option Nat) (k : Nat) : k ≤ (settleCode n c k).2 := by
  cases c <;> simp

theorem settleValue_draws (Q : QNum) (fmt : Fmt) (v : Option Fl) (k : Nat) :
    k ≤ (settleValue Q fmt v k).2 := by
  rcases v with _ | (_ | _ | _) <;> simp [settleValue]

theorem settleCodes_draws (cs : List (Nat × Option Nat)) (k : Nat) : k ≤ (settleCodes cs k).2 := by
  induction cs generalizing k with
  | nil => rfl
  | cons c cs ih => exact (settleCode_draws c.1 c.2 k).trans (ih _)

theorem settleValues_draws (Q : QNum) (fmt : Fmt) (vs : List (Option Fl)) (k : Nat) :
    k ≤ (settleValues Q fmt vs k).2 := by
  induction vs generalizing k with
  | nil => rfl
  | cons v vs ih => exact (settleValue_draws Q fmt v k).trans (ih _)

@[simp] theorem extract_length {α : Type} (word : Nat) (fields : List (Nat × α)) :
    (extract word fields).length = fields.length := by
  induction fields with
  | nil => rfl
  | cons f fields ih => simp [extract, ih]

/-- An outcome that, where it is a next state, has taken no draw since `s`. -/
def KeepsDraws (s : State) (o : Result) : Prop := ∀ t, o = .next t → t.draws = s.draws

namespace KeepsDraws

variable {s : State}

theorem complete {u : State} {r : Response} (h : u.draws = s.draws) : KeepsDraws s (u.complete r) :=
  fun _ ht => by rw [complete_next ht, State.answer_draws, h]

theorem refuse (c : Cause) : KeepsDraws s (refuse c) := fun _ ht => by cases ht

theorem orFault {α : Type} {r : Option α} {k : α → Result} (h : ∀ x, KeepsDraws s (k x)) :
    KeepsDraws s (orFault r k) := fun t ht => by
  obtain ⟨x, -, hx⟩ := orFault_next ht
  exact h x t hx

theorem ite {p : Prop} [Decidable p] {a b : Result} (ha : KeepsDraws s a) (hb : KeepsDraws s b) :
    KeepsDraws s (if p then a else b) := by
  split
  · exact ha
  · exact hb

theorem pack (bs : List Byte) : KeepsDraws s (s.pack bs) := fun t ht => by
  rcases packWith_next ht with ⟨-, -, rfl⟩ | ⟨-, rfl⟩ <;> rfl

theorem unpack (n : Nat) (dec : List Byte → Op) : KeepsDraws s (s.unpack n dec) := fun t ht => by
  rcases unpackWith_next ht with ⟨-, rfl⟩ | ⟨-, rfl⟩ <;> rfl

theorem execConstruct (f : BitVec 4) (op0 : Op) : KeepsDraws s (execConstruct f op0 s) :=
  ite (refuse _) (ite (refuse _) fun _ ht => by cases ht; rfl)

theorem execDump : KeepsDraws s (execDump s) := orFault fun _ => complete rfl

theorem execFpGen : KeepsDraws s (execFpGen s) :=
  ite (complete rfl) (orFault fun _ => orFault fun _ => complete rfl)

theorem execFpGet : KeepsDraws s (execFpGet s) := ite (complete rfl) (orFault fun _ => complete rfl)

theorem execFpChk : KeepsDraws s (execFpChk s) :=
  ite (complete rfl) (orFault fun _ => orFault fun _ => complete rfl)

theorem execPkBlob (op0 : Op) (data : List Byte) : KeepsDraws s (execPkBlob op0 data s) :=
  ite (refuse _) (ite (refuse _) (pack _))

theorem execUpBlob : KeepsDraws s (execUpBlob s) :=
  ite (orFault fun _ => ite (orFault fun _ => complete rfl) (complete rfl)) (complete rfl)

end KeepsDraws

/-- ADOPT draws the fingerprint's bytes where it shifts, and nothing elsewhere (40_buffer_cursor.md R111). -/
theorem execAdopt_draws {f : BitVec 4} {cf sh : Bool} {op0 : Op} {data : List Byte} {s t : State}
    (h : execAdopt f cf sh op0 data s = .next t) :
    t.draws = s.draws + if mayDraw (.adopt f cf sh op0 data) then f.toNat else 0 := by
  unfold execAdopt at h
  dsimp only at h
  split at h
  · cases h
  split at h
  · cases h
  split at h
  · cases h
  split at h
  · cases h
  cases cf <;> cases sh <;> cases h <;> rfl

/-- A command without a free value takes no draw. -/
theorem exec_keepsDraws (i : Instr) (s : State) (hi : mayDraw i = false) : KeepsDraws s (exec i s) := by
  cases i
  case construct f op0 => exact .execConstruct f op0
  case adopt f cf sh op0 data =>
    intro t ht
    rw [execAdopt_draws ht, hi]
    rfl
  case seekStart | seekTo | advance | reverse | rdcsr => exact .complete rfl
  case dump => exact .execDump
  case fpGen => exact .execFpGen
  case fpGet => exact .execFpGet
  case fpChk => exact .execFpChk
  case pkU8 | pkU16 | pkU32 | pkU64 | pkI8 | pkI16 | pkI32 | pkI64 | pkF32 | pkF64 => exact .pack _
  case pkBlob op0 data => exact .execPkBlob op0 data
  case upU8 | upU16 | upU32 | upU64 | upI8 | upI16 | upI32 | upI64 | upF32 | upF64 =>
    exact .unpack _ _
  case upBlob => exact .execUpBlob
  all_goals exact Bool.noConfusion hi

/-! ### The commands that compute with numbers -/

/-- The command packs `n` bytes, whatever they are, and takes no draw back. -/
def PacksBytes (n : Nat) (f : State → Result) : Prop :=
  ∃ bytes : Nat → List Byte × Nat, (∀ k, (bytes k).1.length = n ∧ k ≤ (bytes k).2) ∧
    ∀ s, f s = s.packWith n bytes

/-- The command unpacks `n` bytes to as many words as `zero` has, whatever they are, and takes no draw back. -/
def UnpacksWords (n : Nat) (zero : List Op) (f : State → Result) : Prop :=
  ∃ dec : List Byte → Nat → List Op × Nat,
    (∀ bs k, (dec bs k).1.length = zero.length ∧ k ≤ (dec bs k).2) ∧
    ∀ s, f s = s.unpackWith n dec zero

theorem quantPack_packsBytes (Q : QNum) (fmt : Fmt) (n : Nat) (a : QArg) :
    PacksBytes (n / 8) (quantPack Q fmt n a) :=
  ⟨_, fun _ => ⟨leBytes_length _ _, settleCode_draws _ _ _⟩, fun _ => rfl⟩

theorem quantUnpack_unpacksWords (Q : QNum) (fmt : Fmt) (n : Nat) (r : QRange) :
    UnpacksWords (n / 8) [0] (quantUnpack Q fmt n r) :=
  ⟨_, fun _ _ => ⟨rfl, settleValue_draws _ _ _ _⟩, fun _ => rfl⟩

/-- The bytes of a bit-pack command, and the draw count after them. -/
def bitBytes (Q : QNum) (fields : List (Nat × QArg)) (k : Nat) : List Byte × Nat :=
  let qs := settleCodes (fields.map fun f => (f.1, Q.codeOf .S f.1 f.2)) k
  (beBytes (totalWidth fields / 8) (assemble qs.1), qs.2)

theorem bitPack_packsBytes (Q : QNum) (fields : List (Nat × QArg)) {n : Nat}
    (hn : totalWidth fields = 8 * n) : PacksBytes n (bitPack Q fields) := by
  have hbytes : totalWidth fields / 8 = n := by omega
  subst hbytes
  exact ⟨bitBytes Q fields, fun _ => ⟨beBytes_length _ _, settleCodes_draws _ _⟩, fun _ => rfl⟩

theorem bitUnpack_unpacksWords (Q : QNum) (fields : List (Nat × QRange)) {n : Nat}
    (hn : totalWidth fields = 8 * n) :
    UnpacksWords n (fields.map fun _ => 0) (bitUnpack Q fields) := by
  have hbytes : totalWidth fields / 8 = n := by omega
  subst hbytes
  exact ⟨_, fun _ _ => ⟨by simp, settleValues_draws _ _ _ _⟩, fun _ => rfl⟩

/-- What a command's meaning owes to the arithmetic: the bytes it packs, the words it unpacks, or nothing. -/
inductive ArithmeticRole (i : Instr) : Prop where
  | packs (n : Nat) (hn : accessBytes i = some n) (hd : mayDraw i = true)
      (h : ∀ Q, PacksBytes n (execWith Q i))
  | unpacks (n : Nat) (zero : List Op) (hd : mayDraw i = true)
      (h : ∀ Q, UnpacksWords n zero (execWith Q i))
  | none (hd : mayDraw i = true → ∃ f cf sh op0 data, i = .adopt f cf sh op0 data)
      (h : ∀ Q s, execWith Q i s = exec i s)

/-- The dispatch of `execWith`, a row at a time (30_encoding.md R86). -/
theorem arithmeticRole (i : Instr) : ArithmeticRole i := by
  cases i
  case qpk8S a => exact .packs 1 rfl rfl fun Q => quantPack_packsBytes Q .S 8 a
  case qpk16S a => exact .packs 2 rfl rfl fun Q => quantPack_packsBytes Q .S 16 a
  case qpk24S a => exact .packs 3 rfl rfl fun Q => quantPack_packsBytes Q .S 24 a
  case qpk32S a => exact .packs 4 rfl rfl fun Q => quantPack_packsBytes Q .S 32 a
  case qpk8D a => exact .packs 1 rfl rfl fun Q => quantPack_packsBytes Q .D 8 a
  case qpk16D a => exact .packs 2 rfl rfl fun Q => quantPack_packsBytes Q .D 16 a
  case qpk24D a => exact .packs 3 rfl rfl fun Q => quantPack_packsBytes Q .D 24 a
  case qpk32D a => exact .packs 4 rfl rfl fun Q => quantPack_packsBytes Q .D 32 a
  case qpk40D a => exact .packs 5 rfl rfl fun Q => quantPack_packsBytes Q .D 40 a
  case qpk48D a => exact .packs 6 rfl rfl fun Q => quantPack_packsBytes Q .D 48 a
  case qpk56D a => exact .packs 7 rfl rfl fun Q => quantPack_packsBytes Q .D 56 a
  case qup8S r => exact .unpacks 1 _ rfl fun Q => quantUnpack_unpacksWords Q .S 8 r
  case qup16S r => exact .unpacks 2 _ rfl fun Q => quantUnpack_unpacksWords Q .S 16 r
  case qup24S r => exact .unpacks 3 _ rfl fun Q => quantUnpack_unpacksWords Q .S 24 r
  case qup32S r => exact .unpacks 4 _ rfl fun Q => quantUnpack_unpacksWords Q .S 32 r
  case qup8D r => exact .unpacks 1 _ rfl fun Q => quantUnpack_unpacksWords Q .D 8 r
  case qup16D r => exact .unpacks 2 _ rfl fun Q => quantUnpack_unpacksWords Q .D 16 r
  case qup24D r => exact .unpacks 3 _ rfl fun Q => quantUnpack_unpacksWords Q .D 24 r
  case qup32D r => exact .unpacks 4 _ rfl fun Q => quantUnpack_unpacksWords Q .D 32 r
  case qup40D r => exact .unpacks 5 _ rfl fun Q => quantUnpack_unpacksWords Q .D 40 r
  case qup48D r => exact .unpacks 6 _ rfl fun Q => quantUnpack_unpacksWords Q .D 48 r
  case qup56D r => exact .unpacks 7 _ rfl fun Q => quantUnpack_unpacksWords Q .D 56 r
  case bpk71 a b =>
    exact .packs 1 rfl rfl fun Q => bitPack_packsBytes Q [(7, a), (1, b)] rfl
  case bpk62 a b =>
    exact .packs 1 rfl rfl fun Q => bitPack_packsBytes Q [(6, a), (2, b)] rfl
  case bpk44 a b =>
    exact .packs 1 rfl rfl fun Q => bitPack_packsBytes Q [(4, a), (4, b)] rfl
  case bpk655 a b c =>
    exact .packs 2 rfl rfl fun Q => bitPack_packsBytes Q [(6, a), (5, b), (5, c)] rfl
  case bpk111110 a b c =>
    exact .packs 4 rfl rfl fun Q => bitPack_packsBytes Q [(11, a), (11, b), (10, c)] rfl
  case bpk10X4 a b c d =>
    exact .packs 5 rfl rfl fun Q => bitPack_packsBytes Q [(10, a), (10, b), (10, c), (10, d)] rfl
  case bpk1111108 a b c d =>
    exact .packs 5 rfl rfl fun Q => bitPack_packsBytes Q [(11, a), (11, b), (10, c), (8, d)] rfl
  case bup71 a b =>
    exact .unpacks 1 _ rfl fun Q => bitUnpack_unpacksWords Q [(7, a), (1, b)] rfl
  case bup62 a b =>
    exact .unpacks 1 _ rfl fun Q => bitUnpack_unpacksWords Q [(6, a), (2, b)] rfl
  case bup44 a b =>
    exact .unpacks 1 _ rfl fun Q => bitUnpack_unpacksWords Q [(4, a), (4, b)] rfl
  case bup655 a b c =>
    exact .unpacks 2 _ rfl fun Q => bitUnpack_unpacksWords Q [(6, a), (5, b), (5, c)] rfl
  case bup111110 a b c =>
    exact .unpacks 4 _ rfl fun Q => bitUnpack_unpacksWords Q [(11, a), (11, b), (10, c)] rfl
  case bup10X4 a b c d =>
    exact .unpacks 5 _ rfl fun Q => bitUnpack_unpacksWords Q [(10, a), (10, b), (10, c), (10, d)] rfl
  case bup1111108 a b c d =>
    exact .unpacks 5 _ rfl fun Q => bitUnpack_unpacksWords Q [(11, a), (11, b), (10, c), (8, d)] rfl
  case adopt => exact .none (fun _ => ⟨_, _, _, _, _, rfl⟩) fun _ _ => rfl
  all_goals exact .none (fun hd => Bool.noConfusion hd) fun _ _ => rfl

/-- The machine over the configured arithmetic is this machine. -/
theorem execWith_qnum (i : Instr) (s : State) : execWith Config.qnum i s = exec i s := by
  cases i <;> rfl

/-- A completed pack has a draw count at or above the one before. -/
theorem PacksBytes.draws_le {n : Nat} {f : State → Result} (h : PacksBytes n f) {s t : State}
    (ht : f s = .next t) : s.draws ≤ t.draws := by
  obtain ⟨bytes, hbytes, heq⟩ := h
  rcases packWith_next (heq s ▸ ht) with ⟨-, -, rfl⟩ | ⟨-, rfl⟩
  · exact (hbytes s.draws).2
  · exact le_rfl

/-- A completed unpack has a draw count at or above the one before. -/
theorem UnpacksWords.draws_le {n : Nat} {zero : List Op} {f : State → Result}
    (h : UnpacksWords n zero f) {s t : State} (ht : f s = .next t) : s.draws ≤ t.draws := by
  obtain ⟨dec, hdec, heq⟩ := h
  rcases unpackWith_next (heq s ▸ ht) with ⟨-, rfl⟩ | ⟨-, rfl⟩
  · exact (hdec _ s.draws).2
  · exact le_rfl

/-- Settles O18: a command that computes with numbers takes no draw back, ADOPT takes one for each byte it
draws, and the rest take none. -/
theorem onlyOpenResultsTakeDraws : Obligations.OnlyOpenResultsTakeDraws := by
  intro i s t ht
  refine ⟨?_, fun hi => exec_keepsDraws i s hi t ht⟩
  rcases arithmeticRole i with ⟨n, -, -, h⟩ | ⟨n, zero, -, h⟩ | ⟨hd, -⟩
  · exact (h Config.qnum).draws_le (execWith_qnum i s ▸ ht)
  · exact (h Config.qnum).draws_le (execWith_qnum i s ▸ ht)
  · cases hi : mayDraw i
    · exact (exec_keepsDraws i s hi t ht).ge
    · obtain ⟨f, cf, sh, op0, data, rfl⟩ := hd hi
      rw [execAdopt_draws ht]
      exact Nat.le_add_right _ _

/-! ### Another arithmetic in place of the machine's own -/

/-- The two states are one but for the contents of memory, the values answered and the draws. -/
structure SameShape (t u : State) : Prop where
  buffer : SameBuffer t u
  cursor : u.cursor = t.cursor
  pc : u.pc = t.pc
  commands : u.commands = t.commands
  responses : (u.responses.map fun r => (r.rh, r.res.length, r.rdata)) =
    t.responses.map fun r => (r.rh, r.res.length, r.rdata)

theorem SameShape.refl (t : State) : SameShape t t := ⟨⟨rfl, rfl⟩, rfl, rfl, rfl, rfl⟩

theorem legal_of_wf {s : State} (h : s.wf = true) : s.legal = true := (Bool.and_eq_true_iff.1 h).1

theorem mem_wf_of_wf {s : State} (h : s.wf = true) : s.mem.wf = true :=
  (Bool.and_eq_true_iff.1 (Bool.and_eq_true_iff.1 h).2).1

/-- Two packs of as many bytes complete alike, but for the bytes they store (20_memory.md R57). -/
theorem PacksBytes.sameShape {n : Nat} {f g : State → Result} (hf : PacksBytes n f)
    (hg : PacksBytes n g) {s t : State} (hw : s.wf = true) (ht : f s = .next t) :
    ∃ u, g s = .next u ∧ SameShape t u ∧
      ∀ x, x < s.cursor.toNat ∨ s.cursor.toNat + n ≤ x → u.mem.read x = t.mem.read x := by
  obtain ⟨bytes, hbytes, hfeq⟩ := hf
  obtain ⟨bytes', hbytes', hgeq⟩ := hg
  have hlen := (hbytes s.draws).1
  have hlen' := (hbytes' s.draws).1
  rw [hfeq] at ht
  rw [hgeq]
  rcases packWith_next ht with ⟨hfits, -, rfl⟩ | ⟨hfits, rfl⟩
  · refine ⟨_, packWith_fits (legal_of_wf hw) hfits hlen', ⟨⟨rfl, rfl⟩, rfl, rfl, rfl, rfl⟩,
      fun x hx => ?_⟩
    have hout : ∀ bs : List Byte, bs.length = n →
        (s.mem.writeBytes s.cursor.toNat bs).read x = s.mem.read x := fun bs hbs => by
      rw [Memory.read_writeBytes _ _ _ (mem_wf_of_wf hw), if_neg (by omega)]
    exact (hout _ hlen').trans (hout _ hlen).symm
  · exact ⟨_, packWith_dropped hfits, .refl _, fun _ _ => rfl⟩

/-- Two unpacks to as many words complete alike, but for the words (20_memory.md R58). -/
theorem UnpacksWords.sameShape {n : Nat} {zero : List Op} {f g : State → Result}
    (hf : UnpacksWords n zero f) (hg : UnpacksWords n zero g) {s t : State}
    (hw : s.wf = true) (ht : f s = .next t) :
    ∃ u, g s = .next u ∧ SameShape t u ∧ u.mem = t.mem := by
  obtain ⟨dec, hdec, hfeq⟩ := hf
  obtain ⟨dec', hdec', hgeq⟩ := hg
  rw [hfeq] at ht
  rw [hgeq]
  rcases unpackWith_next ht with ⟨hfits, rfl⟩ | ⟨hfits, rfl⟩
  · refine ⟨_, unpackWith_fits (legal_of_wf hw) hfits, ⟨⟨rfl, rfl⟩, rfl, rfl, rfl, ?_⟩, rfl⟩
    simp [Response.words, (hdec _ _).1, (hdec' _ _).1]
  · exact ⟨_, unpackWith_under hfits, .refl _, rfl⟩

theorem PacksBytes.completes {n : Nat} {f : State → Result} (h : PacksBytes n f) {s : State}
    (hl : s.legal = true) : ∃ t, f s = .next t := by
  obtain ⟨bytes, hbytes, heq⟩ := h
  rw [heq]
  cases hfits : s.fits n
  · exact ⟨_, packWith_dropped hfits⟩
  · exact ⟨_, packWith_fits hl hfits (hbytes _).1⟩

theorem UnpacksWords.completes {n : Nat} {zero : List Op} {f : State → Result}
    (h : UnpacksWords n zero f) {s : State} (hl : s.legal = true) : ∃ t, f s = .next t := by
  obtain ⟨dec, -, heq⟩ := h
  rw [heq]
  cases hfits : s.fits n
  · exact ⟨_, unpackWith_under hfits⟩
  · exact ⟨_, unpackWith_fits hl hfits⟩

theorem stepWith_qnum (s : State) : stepWith Config.qnum s = step s := by
  unfold stepWith step
  cases s.fetch with
  | none => rfl
  | some p =>
    dsimp only
    cases decode p with
    | error c => rfl
    | ok i => exact execWith_qnum i s

/-- A completed command completes in any arithmetic, with the same shape, and the same wherever it has no free
value. -/
theorem execWith_sameShape (Q : QNum) {i : Instr} {s t : State} (hw : s.wf = true)
    (ht : exec i s = .next t) :
    ∃ u, execWith Q i s = .next u ∧ SameShape t u ∧
      (∀ x, x < s.cursor.toNat ∨ s.cursor.toNat + (accessBytes i).getD 0 ≤ x →
        u.mem.read x = t.mem.read x) ∧
      (mayDraw i = false → u = t) := by
  have hfree : mayDraw i = true → ∀ u : State, mayDraw i = false → u = t := fun h u h' =>
    Bool.noConfusion (h.symm.trans h')
  rcases arithmeticRole i with ⟨n, hn, hd, h⟩ | ⟨n, zero, hd, h⟩ | ⟨-, h⟩
  · rw [← execWith_qnum] at ht
    obtain ⟨u, hu, hshape, hmem⟩ := (h Config.qnum).sameShape (h Q) hw ht
    exact ⟨u, hu, hshape, by rwa [hn], hfree hd u⟩
  · rw [← execWith_qnum] at ht
    obtain ⟨u, hu, hshape, hmem⟩ := (h Config.qnum).sameShape (h Q) hw ht
    exact ⟨u, hu, hshape, fun x _ => by rw [hmem], hfree hd u⟩
  · exact ⟨t, h Q s ▸ ht, .refl t, fun _ _ => rfl, fun _ => rfl⟩

/-- A refused command is refused in any arithmetic: no command that computes with numbers is. -/
theorem execWith_refused (Q : QNum) {i : Instr} {s : State} {c : Refusal} (hl : s.legal = true)
    (hc : exec i s = .refused c) : execWith Q i s = .refused c := by
  rcases arithmeticRole i with ⟨n, -, -, h⟩ | ⟨n, zero, -, h⟩ | ⟨-, h⟩
  · obtain ⟨t, ht⟩ := (h Config.qnum).completes hl
    rw [execWith_qnum, hc] at ht
    cases ht
  · obtain ⟨t, ht⟩ := (h Config.qnum).completes hl
    rw [execWith_qnum, hc] at ht
    cases ht
  · rw [h, hc]

/-- Settles O60, by what each command owes to the arithmetic. -/
theorem anotherArithmeticKeepsTheShape : Obligations.AnotherArithmeticKeepsTheShape := by
  refine ⟨execWith_qnum, stepWith_qnum, fun Q i s hw => ⟨fun t ht => ?_, fun c hc =>
    execWith_refused Q (legal_of_wf hw) hc⟩⟩
  obtain ⟨u, hu, hshape, hmem, hsame⟩ := execWith_sameShape Q hw ht
  exact ⟨u, hu, hshape.buffer, hshape.cursor, hshape.pc, hshape.commands, hshape.responses, hmem,
    hsame⟩

end Sys2Proof.Machine
end

section
/-! The contents of memory: bytes read as one number, and which contents are legal (10_state.md R24, 20_memory.md
R50). -/

namespace Sys2Proof.Machine

theorem Memory.readBytes_succ (m : Memory) (a n : Nat) :
    m.readBytes a (n + 1) = m.readBytes a n ++ [m.read (a + n)] := by
  induction n generalizing a with
  | zero => rfl
  | succ n ih =>
    rw [Memory.readBytes, ih (a + 1), Memory.readBytes, List.cons_append, Nat.add_right_comm,
      Nat.add_assoc]

theorem fromBE_concat (bs : List Byte) (b : Byte) : fromBE (bs ++ [b]) = fromBE bs * 256 + b.toNat := by
  simp only [fromBE, List.reverse_concat, fromLE]
  omega

/-- The number read at an address, said with the model's readers. -/
theorem fromBE_readBytes (m : Memory) (a n : Nat) : fromBE (m.readBytes a n) = beWord m a n := by
  induction n with
  | zero => rfl
  | succ n ih => rw [Memory.readBytes_succ, fromBE_concat, ih, beWord]

/-- The memory part of `State.memLegal`: canonical, and no cell at or above `MEM_BYTES`. -/
def Memory.inBounds (m : Memory) : Bool := m.wf && m.all fun c => decide (c.1 < Config.memBytes)

theorem Memory.inBounds_iff {m : Memory} :
    m.inBounds = true ↔ m.wf = true ∧ m.all (fun c => decide (c.1 < Config.memBytes)) = true := by
  simp [Memory.inBounds]

theorem wf_state_iff (s : State) :
    s.wf = true ↔ fpwLegal s.fpw = true ∧ s.backing ≤ Config.memBytes ∧ s.mem.inBounds = true := by
  rw [State.wf, Bool.and_eq_true, legal_iff, and_assoc]
  rfl

theorem inBounds_of_wf {s : State} (h : s.wf = true) : s.mem.inBounds = true :=
  ((wf_state_iff s).1 h).2.2

theorem backing_le_of_legal {s : State} (h : s.legal = true) : s.backing ≤ Config.memBytes :=
  ((legal_iff s).1 h).2

theorem Memory.inBounds_clear {m : Memory} (n : Nat) (hm : m.inBounds = true) :
    (m.clear n).inBounds = true := by
  obtain ⟨hwf, hall⟩ := Memory.inBounds_iff.1 hm
  exact Memory.inBounds_iff.2 ⟨Memory.wf_clear n hwf, Memory.all_clear n hall⟩

theorem Memory.inBounds_writeBytes {m : Memory} {a : Nat} {bs : List Byte} (hm : m.inBounds = true)
    (h : a + bs.length ≤ Config.memBytes) : (m.writeBytes a bs).inBounds = true := by
  obtain ⟨hwf, hall⟩ := Memory.inBounds_iff.1 hm
  refine Memory.inBounds_iff.2 ⟨Memory.wf_writeBytes a bs hwf, Memory.all_writeBytes hall ?_⟩
  intro x _ _ hx
  exact decide_eq_true (hx.trans_le h)

/-- `m'` is legal and holds `bs` from address 0 on and above them what `m` holds. -/
def Filled (m m' : Memory) (bs : List Byte) : Prop :=
  m'.inBounds = true ∧ ∀ x, m'.read x = if x < bs.length then bs.getD x 0 else m.read x

theorem filled_clear {m : Memory} (n : Nat) (hm : m.inBounds = true) :
    Filled m (m.clear n) (List.replicate n 0) := by
  refine ⟨Memory.inBounds_clear n hm, fun x => ?_⟩
  rw [Memory.read_clear, List.length_replicate]
  split
  next hx => rw [List.getD_replicate _ hx]
  next => rfl

theorem filled_writeBytes {m : Memory} {bs : List Byte} (hm : m.inBounds = true)
    (h : bs.length ≤ Config.memBytes) : Filled m (m.writeBytes 0 bs) bs := by
  refine ⟨Memory.inBounds_writeBytes hm (by omega), fun x => ?_⟩
  rw [Memory.read_writeBytes 0 bs x (Memory.inBounds_iff.1 hm).1]
  simp

/-- Bytes from address 0 on and a body after them, in the order of the writes that ADOPT takes without a shift. -/
theorem filled_pre_body {m : Memory} {n : Nat} {pre body : List Byte} (hm : m.inBounds = true)
    (hn : pre.length = n) (h : n + body.length ≤ Config.memBytes) :
    Filled m ((m.writeBytes 0 pre).writeBytes n body) (pre ++ body) := by
  subst hn
  obtain ⟨hpre, hread⟩ := filled_writeBytes (bs := pre) hm (by omega)
  refine ⟨Memory.inBounds_writeBytes hpre h, fun x => ?_⟩
  rw [Memory.read_writeBytes _ _ _ (Memory.inBounds_iff.1 hpre).1, hread, List.length_append]
  by_cases hx : x < pre.length
  · rw [if_neg (by omega), if_pos hx, if_pos (by omega), List.getD_append _ _ _ _ hx]
  · rw [List.getD_append_right _ _ _ _ (by omega), if_neg hx]
    simp only [Nat.not_lt.1 hx, true_and]

/-- The same bytes, in the order of the writes that ADOPT takes with a shift. -/
theorem filled_body_pre {m : Memory} {n : Nat} {pre body : List Byte} (hm : m.inBounds = true)
    (hn : pre.length = n) (h : n + body.length ≤ Config.memBytes) :
    Filled m ((m.writeBytes n body).writeBytes 0 pre) (pre ++ body) := by
  subst hn
  have hbody := Memory.inBounds_writeBytes hm h
  obtain ⟨hpre, hread⟩ := filled_writeBytes (bs := pre) hbody (by omega)
  refine ⟨hpre, fun x => ?_⟩
  rw [hread, Memory.read_writeBytes _ _ _ (Memory.inBounds_iff.1 hm).1, List.length_append]
  by_cases hx : x < pre.length
  · rw [if_pos hx, if_pos (by omega), List.getD_append _ _ _ _ hx]
  · rw [List.getD_append_right _ _ _ _ (by omega), if_neg hx]
    simp only [Nat.not_lt.1 hx, true_and]

end Sys2Proof.Machine
end

section
/-! What every command does, said once for all states: 69 commands have a dozen shapes (30_encoding.md R86). -/

namespace Sys2Proof.Machine

/-! ### Packs and unpacks as the two templates (20_memory.md R57, R58) -/

theorem pack_packsBytes (bs : List Byte) : PacksBytes bs.length fun s => s.pack bs :=
  ⟨fun k => (bs, k), fun _ => ⟨rfl, le_rfl⟩, fun _ => rfl⟩

theorem unpack_unpacksWords (n : Nat) (dec : List Byte → Op) :
    UnpacksWords n [0] fun s => s.unpack n dec :=
  ⟨fun bs k => ([dec bs], k), fun _ _ => ⟨rfl, le_rfl⟩, fun _ => rfl⟩

/-! ### A new buffer (40_buffer_cursor.md R110, R111) -/

/-- The command makes a buffer of `l` payload bytes and a fingerprint width `f`, and the bytes from address 0 on
are `image`, a function of the draws alone. -/
def BuildsBuffer (l : Nat) (f : BitVec 4) (F : State → Result) : Prop :=
  ∃ (image : Nat → List Byte × Nat) (fill : Nat → Memory → Memory),
    (∀ k, (image k).1.length = l + f.toNat) ∧
    (∀ k m, m.inBounds = true → Filled m (fill k m) (image k).1) ∧
    ∀ s, F s = .next (((s.rebuild (BitVec.ofNat 32 l) f (fill s.draws s.mem)).drawn
      (image s.draws).2).answer .done)

theorem construct_wf_iff {f : BitVec 4} {op0 : Op} :
    (Instr.construct f op0).wf = true ↔
      fpwLegal f = true ∧ op0.toNat + f.toNat ≤ Config.memBytes := by
  simp [Instr.wf]

theorem construct_refused {f : BitVec 4} {op0 : Op} (h : (Instr.construct f op0).wf = false) :
    ∃ c, ∀ s, exec (.construct f op0) s = refuse c := by
  rw [← Bool.not_eq_true, construct_wf_iff] at h
  by_cases hf : fpwLegal f = true
  · have hsize : Config.memBytes < op0.toNat + f.toNat := by
      by_contra hle
      exact h ⟨hf, by omega⟩
    exact ⟨.tooLarge, fun s => by simp [exec, execConstruct, hf, hsize]⟩
  · exact ⟨.illegalFpw, fun s => by simp [exec, execConstruct, hf]⟩

theorem construct_builds {f : BitVec 4} {op0 : Op} (h : (Instr.construct f op0).wf = true) :
    fpwLegal f = true ∧ op0.toNat + f.toNat ≤ Config.memBytes ∧
      BuildsBuffer op0.toNat f (exec (.construct f op0)) := by
  obtain ⟨hf, hsize⟩ := construct_wf_iff.1 h
  refine ⟨hf, hsize, fun k => (List.replicate (op0.toNat + f.toNat) 0, k),
    fun _ m => m.clear (op0.toNat + f.toNat), fun _ => List.length_replicate,
    fun _ _ hm => filled_clear _ hm, fun s => ?_⟩
  have hfit : ¬ Config.memBytes < op0.toNat + f.toNat := by omega
  simp only [exec, execConstruct, hf, hfit]
  rfl

theorem adopt_wf_iff {f : BitVec 4} {cf sh : Bool} {op0 : Op} {data : List Byte} :
    (Instr.adopt f cf sh op0 data).wf = true ↔
      fpwLegal f = true ∧ data.length = op0.toNat ∧
        adoptRegion f cf sh op0 ≤ Config.memBytes ∧
        ((cf || sh) && decide (op0.toNat < f.toNat)) = false := by
  simp only [Instr.wf, Bool.and_eq_true, decide_eq_true_eq, and_assoc, Bool.and_eq_false_iff,
    Bool.or_eq_true, Bool.not_eq_true', decide_eq_false_iff_not, not_lt]

theorem adopt_refused {f : BitVec 4} {cf sh : Bool} {op0 : Op} {data : List Byte}
    (h : (Instr.adopt f cf sh op0 data).wf = false) :
    ∃ c, ∀ s, exec (.adopt f cf sh op0 data) s = refuse c := by
  rw [← Bool.not_eq_true, adopt_wf_iff] at h
  by_cases hf : fpwLegal f = true
  case neg => exact ⟨.illegalFpw, fun s => by simp [exec, execAdopt, hf]⟩
  by_cases hlen : data.length = op0.toNat
  case neg => exact ⟨.badPacket, fun s => by simp [exec, execAdopt, hf, hlen]⟩
  by_cases hsize : Config.memBytes < adoptRegion f cf sh op0
  case pos => exact ⟨.tooLarge, fun s => by simp [exec, execAdopt, hf, hlen, hsize]⟩
  have hshort : ((cf || sh) && decide (op0.toNat < f.toNat)) = true := by
    by_contra hno
    exact h ⟨hf, hlen, by omega, by simpa using hno⟩
  have hok : ¬ data.length ≠ op0.toNat := not_not.2 hlen
  exact ⟨.badLength, fun s => by simp only [exec, execAdopt, hf, hok, hsize, hshort]; rfl⟩

/-- A well-formed ADOPT passes its checks, and then one of three writes is left. -/
theorem exec_adopt_of_wf {f : BitVec 4} {cf sh : Bool} {op0 : Op} {data : List Byte} (s : State)
    (h : (Instr.adopt f cf sh op0 data).wf = true) :
    exec (.adopt f cf sh op0 data) s =
      if cf then
        .next ((s.rebuild (BitVec.ofNat 32 (op0.toNat - f.toNat)) f
          (s.mem.writeBytes 0 data)).answer .done)
      else if sh then
        .next (((s.rebuild (BitVec.ofNat 32 (op0.toNat - f.toNat)) f
          ((s.mem.writeBytes f.toNat (data.take (op0.toNat - f.toNat))).writeBytes 0
            (drawBytes s.draws f.toNat))).drawn (s.draws + f.toNat)).answer .done)
      else
        .next ((s.rebuild (BitVec.ofNat 32 op0.toNat) f
          ((s.mem.writeBytes 0 (List.replicate f.toNat 0)).writeBytes f.toNat data)).answer .done) := by
  obtain ⟨hf, hlen, hsize, hshort⟩ := adopt_wf_iff.1 h
  have hfit : ¬ Config.memBytes < adoptRegion f cf sh op0 := by omega
  have hok : ¬ data.length ≠ op0.toNat := not_not.2 hlen
  simp only [exec, execAdopt, hf, hok, hfit, hshort]
  rfl

theorem adopt_builds {f : BitVec 4} {cf sh : Bool} {op0 : Op} {data : List Byte}
    (h : (Instr.adopt f cf sh op0 data).wf = true) :
    fpwLegal f = true ∧ ∃ l, l + f.toNat ≤ Config.memBytes ∧
      BuildsBuffer l f (exec (.adopt f cf sh op0 data)) := by
  obtain ⟨hf, hlen, hsize, hshort⟩ := adopt_wf_iff.1 h
  refine ⟨hf, ?_⟩
  have hexec := fun s => exec_adopt_of_wf s h
  cases cf with
  | true =>
    have hle : f.toNat ≤ op0.toNat := by simpa using hshort
    replace hsize : op0.toNat ≤ Config.memBytes := hsize
    exact ⟨op0.toNat - f.toNat, by omega, fun k => (data, k), fun _ m => m.writeBytes 0 data,
      fun _ => by simp only [hlen]; omega, fun _ _ hm => filled_writeBytes hm (by omega), hexec⟩
  | false =>
    cases sh with
    | true =>
      have hle : f.toNat ≤ op0.toNat := by simpa using hshort
      replace hsize : op0.toNat ≤ Config.memBytes := hsize
      have hbody : (data.take (op0.toNat - f.toNat)).length = op0.toNat - f.toNat := by
        rw [List.length_take]; omega
      exact ⟨op0.toNat - f.toNat, by omega,
        fun k => (drawBytes k f.toNat ++ data.take (op0.toNat - f.toNat), k + f.toNat),
        fun k m => (m.writeBytes f.toNat (data.take (op0.toNat - f.toNat))).writeBytes 0
          (drawBytes k f.toNat),
        fun _ => by rw [List.length_append, drawBytes_length, hbody, Nat.add_comm],
        fun _ _ hm => filled_body_pre hm (drawBytes_length _ _) (by omega), hexec⟩
    | false =>
      replace hsize : op0.toNat + f.toNat ≤ Config.memBytes := hsize
      exact ⟨op0.toNat, hsize, fun k => (List.replicate f.toNat 0 ++ data, k),
        fun _ m => (m.writeBytes 0 (List.replicate f.toNat 0)).writeBytes f.toNat data,
        fun _ => by rw [List.length_append, List.length_replicate, hlen, Nat.add_comm],
        fun _ _ hm => filled_pre_body hm List.length_replicate (by omega), hexec⟩

/-- CONSTRUCT and ADOPT: refused whatever the state where ill formed, a new buffer where well formed. -/
theorem build_cases {i : Instr} (hi : isBuild i = true) :
    (i.wf = false ∧ ∃ c, ∀ s, exec i s = refuse c) ∨
      ∃ l f, fpwLegal f = true ∧ l + f.toNat ≤ Config.memBytes ∧ BuildsBuffer l f (exec i) := by
  cases i
  case construct f op0 =>
    cases hw : (Instr.construct f op0).wf
    · exact .inl ⟨rfl, construct_refused hw⟩
    · exact .inr ⟨_, f, construct_builds hw⟩
  case adopt f cf sh op0 data =>
    cases hw : (Instr.adopt f cf sh op0 data).wf
    · exact .inl ⟨rfl, adopt_refused hw⟩
    · obtain ⟨hf, l, hl⟩ := adopt_builds hw
      exact .inr ⟨l, f, hf, hl⟩
  all_goals exact Bool.noConfusion hi

theorem BuildsBuffer.next {l : Nat} {f : BitVec 4} {F : State → Result} (h : BuildsBuffer l f F)
    {s t : State} (ht : F s = .next t) :
    ∃ m k, (s.mem.inBounds = true → m.inBounds = true) ∧
      t = ((s.rebuild (BitVec.ofNat 32 l) f m).drawn k).answer .done := by
  obtain ⟨image, fill, -, hfill, heq⟩ := h
  exact ⟨_, _, fun hm => (hfill s.draws s.mem hm).1, (Host.Outcome.next.inj (heq s ▸ ht)).symm⟩

/-! ### PK_BLOB (42_primitive.md R151) -/

theorem pkBlob_wf_iff {op0 : Op} {data : List Byte} :
    (Instr.pkBlob op0 data).wf = true ↔ op0.toNat ≤ maxBlob ∧ data.length = op0.toNat := by
  simp [Instr.wf]

theorem pkBlob_refused {op0 : Op} {data : List Byte} (h : (Instr.pkBlob op0 data).wf = false) :
    ∃ c, ∀ s, exec (.pkBlob op0 data) s = refuse c := by
  rw [← Bool.not_eq_true, pkBlob_wf_iff] at h
  by_cases hlong : maxBlob < op0.toNat
  · exact ⟨.badLength, fun s => by simp [exec, execPkBlob, hlong]⟩
  · have hlen : data.length ≠ op0.toNat := fun hlen => h ⟨by omega, hlen⟩
    exact ⟨.badPacket, fun s => by simp [exec, execPkBlob, hlong, hlen]⟩

theorem exec_pkBlob_of_wf {op0 : Op} {data : List Byte} (s : State)
    (h : (Instr.pkBlob op0 data).wf = true) :
    exec (.pkBlob op0 data) s = s.pack (beBytes 2 op0.toNat ++ data) := by
  obtain ⟨hlong, hlen⟩ := pkBlob_wf_iff.1 h
  have hshort : ¬ maxBlob < op0.toNat := by omega
  have hok : ¬ data.length ≠ op0.toNat := not_not.2 hlen
  simp only [exec, execPkBlob, hshort, hok]
  rfl

theorem pkBlob_packsBytes {op0 : Op} {data : List Byte} (h : (Instr.pkBlob op0 data).wf = true) :
    PacksBytes (2 + op0.toNat) (exec (.pkBlob op0 data)) := by
  have hlen : (beBytes 2 op0.toNat ++ data).length = 2 + op0.toNat := by
    rw [List.length_append, beBytes_length, (pkBlob_wf_iff.1 h).2]
  have hexec : exec (.pkBlob op0 data) = fun s => s.pack (beBytes 2 op0.toNat ++ data) :=
    funext fun s => exec_pkBlob_of_wf s h
  rw [← hlen, hexec]
  exact pack_packsBytes _

/-! ### The shapes of the commands -/

/-- What a command does, by the shape of its rule. UP_BLOB and the commands that read fixed parts
of the state stand for themselves. -/
inductive CommandRole : Instr → Prop
  | refused {i : Instr} (c : Cause) (hw : i.wf = false) (h : ∀ s, exec i s = refuse c) :
      CommandRole i
  | packs {i : Instr} {n : Nat} (hi : isPack i = true) (hn : accessBytes i = some n)
      (hr : resultWords i = 0) (h : PacksBytes n (exec i)) : CommandRole i
  | unpacks {i : Instr} {n : Nat} (hi : isUnpack i = true) (hn : accessBytes i = some n)
      (h : UnpacksWords n (List.replicate (resultWords i) 0) (exec i)) : CommandRole i
  | builds {i : Instr} {l : Nat} {f : BitVec 4} (hi : isBuild i = true) (hf : fpwLegal f = true)
      (hl : l + f.toNat ≤ Config.memBytes) (h : BuildsBuffer l f (exec i)) : CommandRole i
  | moves {i : Instr} (hi : isCursor i = true) (c : State → BitVec 32)
      (hc : ∀ s u : State, s.cursor = u.cursor → s.len = u.len → s.fpw = u.fpw → c s = c u)
      (h : ∀ s, exec i s = (s.moveTo (c s)).complete .done) : CommandRole i
  | upBlob : CommandRole .upBlob
  | rdcsr (r : BitVec 2) : CommandRole (.rdcsr r)
  | dump : CommandRole .dump
  | fpGen : CommandRole .fpGen
  | fpGet : CommandRole .fpGet
  | fpChk : CommandRole .fpChk

namespace CommandRole

variable {i : Instr}

theorem of_isBuild (hi : isBuild i = true) : CommandRole i := by
  rcases build_cases hi with ⟨hw, c, h⟩ | ⟨l, f, hf, hl, h⟩
  · exact .refused c hw h
  · exact .builds hi hf hl h

theorem of_pack {bs : List Byte} (h : ∀ s, exec i s = s.pack bs) (hi : isPack i = true)
    (hn : accessBytes i = some bs.length) (hr : resultWords i = 0) : CommandRole i :=
  .packs hi hn hr (funext h ▸ pack_packsBytes bs)

theorem of_unpack {n : Nat} {dec : List Byte → Op} (h : ∀ s, exec i s = s.unpack n dec)
    (hi : isUnpack i = true) (hn : accessBytes i = some n) (hr : resultWords i = 1) :
    CommandRole i :=
  .unpacks hi hn (hr ▸ funext h ▸ unpack_unpacksWords n dec)

theorem of_quantPack {fmt : Fmt} {n : Nat} {a : QArg}
    (h : ∀ s, exec i s = quantPack Config.qnum fmt n a s) (hi : isPack i = true)
    (hn : accessBytes i = some (n / 8)) (hr : resultWords i = 0) : CommandRole i :=
  .packs hi hn hr (funext h ▸ quantPack_packsBytes _ fmt n a)

theorem of_quantUnpack {fmt : Fmt} {n : Nat} {r : QRange}
    (h : ∀ s, exec i s = quantUnpack Config.qnum fmt n r s) (hi : isUnpack i = true)
    (hn : accessBytes i = some (n / 8)) (hr : resultWords i = 1) : CommandRole i :=
  .unpacks hi hn (hr ▸ funext h ▸ quantUnpack_unpacksWords _ fmt n r)

theorem of_bitPack {fields : List (Nat × QArg)} {n : Nat}
    (h : ∀ s, exec i s = bitPack Config.qnum fields s) (hi : isPack i = true)
    (hn : accessBytes i = some n) (hr : resultWords i = 0) (hw : totalWidth fields = 8 * n) :
    CommandRole i :=
  .packs hi hn hr (funext h ▸ bitPack_packsBytes _ fields hw)

theorem of_bitUnpack {fields : List (Nat × QRange)} {n : Nat}
    (h : ∀ s, exec i s = bitUnpack Config.qnum fields s) (hi : isUnpack i = true)
    (hn : accessBytes i = some n) (hr : resultWords i = fields.length)
    (hw : totalWidth fields = 8 * n) : CommandRole i := by
  have hzero : fields.map (fun _ => (0 : Op)) = List.replicate (resultWords i) 0 := by
    rw [hr, List.map_const']
  exact .unpacks hi hn (hzero ▸ funext h ▸ bitUnpack_unpacksWords _ fields hw)

end CommandRole

/-- The dispatch of `exec`, a shape at a time (30_encoding.md R86). -/
theorem commandRole (i : Instr) : CommandRole i := by
  cases i
  case construct | adopt => exact .of_isBuild rfl
  case seekStart => exact .moves rfl _ (fun s u _ _ hf => congrArg _ hf) fun _ => rfl
  case seekTo v =>
    exact .moves rfl _ (fun s u _ hl hf => by rw [hl, hf]) fun _ => rfl
  case advance v =>
    exact .moves rfl (fun s => s.cursor + v.setWidth 32) (fun s u hc _ _ => by rw [hc]) fun _ => rfl
  case reverse v =>
    exact .moves rfl (fun s => s.cursor - v.setWidth 32) (fun s u hc _ _ => by rw [hc]) fun _ => rfl
  case rdcsr r => exact .rdcsr r
  case dump => exact .dump
  case fpGen => exact .fpGen
  case fpGet => exact .fpGet
  case fpChk => exact .fpChk
  case pkU8 | pkU16 | pkU32 | pkU64 | pkI8 | pkI16 | pkI32 | pkI64 | pkF32 | pkF64 =>
    exact .of_pack (fun _ => rfl) rfl rfl rfl
  case pkBlob op0 data =>
    cases hw : (Instr.pkBlob op0 data).wf
    · obtain ⟨c, h⟩ := pkBlob_refused hw
      exact .refused c hw h
    · exact .packs rfl rfl rfl (pkBlob_packsBytes hw)
  case upU8 | upU16 | upU32 | upU64 | upI8 | upI16 | upI32 | upI64 | upF32 | upF64 =>
    exact .of_unpack (fun _ => rfl) rfl rfl rfl
  case upBlob => exact .upBlob
  case qpk8S | qpk16S | qpk24S | qpk32S | qpk8D | qpk16D | qpk24D | qpk32D | qpk40D | qpk48D | qpk56D =>
    exact .of_quantPack (fun _ => rfl) rfl rfl rfl
  case qup8S | qup16S | qup24S | qup32S | qup8D | qup16D | qup24D | qup32D | qup40D | qup48D | qup56D =>
    exact .of_quantUnpack (fun _ => rfl) rfl rfl rfl
  case bpk71 | bpk62 | bpk44 | bpk655 | bpk111110 | bpk10X4 | bpk1111108 =>
    exact .of_bitPack (fun _ => rfl) rfl rfl rfl rfl
  case bup71 | bup62 | bup44 | bup655 | bup111110 | bup10X4 | bup1111108 =>
    exact .of_bitUnpack (fun _ => rfl) rfl rfl rfl rfl

end Sys2Proof.Machine
end

section
/-! What a completed command can have done to the state and what it answers (10_state.md R26, R28), and the
invariants that follow. -/

namespace Sys2Proof.Machine

/-! ### The response (30_encoding.md R82, R84, R85) -/

/-- The responses a command's format admits. -/
inductive Replies (i : Instr) : Response → Prop
  | words {ws : List Op} (hlen : ws.length = resultWords i) (hdump : i ≠ .dump)
      (hblob : i ≠ .upBlob) : Replies i (.words ws)
  | bytes (bs : List Byte) (hi : i = .dump ∨ i = .upBlob) : Replies i (.bytes bs)

theorem Replies.of_access {i : Instr} {n : Nat} {ws : List Op} (hn : accessBytes i = some n)
    (hlen : ws.length = resultWords i) : Replies i (.words ws) :=
  .words hlen (by rintro rfl; cases hn) (by rintro rfl; cases hn)

theorem Replies.of_isBuild {i : Instr} (hi : isBuild i = true) : Replies i .done := by
  cases i
  case construct | adopt => exact .words rfl nofun nofun
  all_goals exact Bool.noConfusion hi

theorem Replies.of_isCursor {i : Instr} (hi : isCursor i = true) : Replies i .done := by
  cases i
  case seekStart | seekTo | advance | reverse => exact .words rfl nofun nofun
  all_goals exact Bool.noConfusion hi

/-! ### The effect (10_state.md R28) -/

/-- The width of an access that fits: the width table's, or what UP_BLOB reads. -/
def AccessWidth (i : Instr) (s : State) (n : Nat) : Prop :=
  (∀ m, accessBytes i = some m → n = m) ∧ (i = .upBlob → n = 2 + beWord s.mem s.cursor.toNat 2)

theorem AccessWidth.of_some {i : Instr} {n : Nat} (s : State) (hn : accessBytes i = some n) :
    AccessWidth i s n :=
  ⟨fun _ hm => Option.some.inj (hn.symm.trans hm), by rintro rfl; cases hn⟩

/-- The state a completed command leaves, before its response is sent. -/
inductive Effect (i : Instr) (s : State) : State → Prop
  | keeps : Effect i s s
  | moves (hi : isCursor i = true) (c : BitVec 32) : Effect i s (s.moveTo c)
  | packs {n : Nat} {bs : List Byte} (k : Nat) (hi : isPack i = true) (hn : AccessWidth i s n)
      (hfits : s.fits n = true) (hlen : bs.length = n) :
      Effect i s (((s.store (s.mem.writeBytes s.cursor.toNat bs)).drawn k).moveTo
        (s.cursor + BitVec.ofNat 32 n))
  | unpacks {n : Nat} (k : Nat) (hi : isUnpack i = true) (hn : AccessWidth i s n)
      (hfits : s.fits n = true) :
      Effect i s ((s.drawn k).moveTo (s.cursor + BitVec.ofNat 32 n))
  | fingerprints {bs : List Byte} (hi : i = .fpGen) (hlen : bs.length = s.fpw.toNat) :
      Effect i s (s.store (s.mem.writeBytes 0 bs))
  | builds {l : Nat} {f : BitVec 4} {m : Memory} (k : Nat) (hi : isBuild i = true)
      (hf : fpwLegal f = true) (hl : l + f.toNat ≤ Config.memBytes)
      (hm : s.mem.inBounds = true → m.inBounds = true) :
      Effect i s ((s.rebuild (BitVec.ofNat 32 l) f m).drawn k)

/-- What `exec` leaves where it completes: an effect, and then the response. -/
def Completed (i : Instr) (s t : State) : Prop :=
  ∃ u r, Effect i s u ∧ Replies i r ∧ t = u.answer r

theorem completed_keeps {i : Instr} {s t : State} {r : Response} (hr : Replies i r)
    (ht : s.complete r = .next t) : Completed i s t :=
  ⟨s, r, .keeps, hr, complete_next ht⟩

theorem execDump_completed {s t : State} (ht : execDump s = .next t) : Completed .dump s t := by
  obtain ⟨bs, -, hbs⟩ := orFault_next ht
  exact completed_keeps (.bytes bs (.inl rfl)) hbs

theorem execFpGen_completed {s t : State} (ht : execFpGen s = .next t) : Completed .fpGen s t := by
  have hr : Replies .fpGen .done := .words rfl nofun nofun
  unfold execFpGen at ht
  dsimp only at ht
  split at ht
  · exact completed_keeps hr ht
  · obtain ⟨payload, -, hpayload⟩ := orFault_next ht
    obtain ⟨m, hm, hstore⟩ := orFault_next hpayload
    obtain ⟨-, rfl⟩ := memWrite_some hm
    exact ⟨_, _, .fingerprints rfl (beBytes_length _ _), hr, complete_next hstore⟩

theorem execFpGet_completed {s t : State} (ht : execFpGet s = .next t) : Completed .fpGet s t := by
  have hr : ∀ w, Replies .fpGet (.word w) := fun w => .words rfl nofun nofun
  unfold execFpGet at ht
  dsimp only at ht
  split at ht
  · exact completed_keeps (hr _) ht
  · obtain ⟨bs, -, hbs⟩ := orFault_next ht
    exact completed_keeps (hr _) hbs

theorem execFpChk_completed {s t : State} (ht : execFpChk s = .next t) : Completed .fpChk s t := by
  have hr : ∀ w, Replies .fpChk (.word w) := fun w => .words rfl nofun nofun
  unfold execFpChk at ht
  dsimp only at ht
  split at ht
  · exact completed_keeps (hr _) ht
  · obtain ⟨stored, -, hstored⟩ := orFault_next ht
    obtain ⟨payload, -, hpayload⟩ := orFault_next hstored
    exact completed_keeps (hr _) hpayload

theorem execUpBlob_completed {s t : State} (ht : execUpBlob s = .next t) : Completed .upBlob s t := by
  have hr : ∀ bs, Replies .upBlob (.bytes bs) := fun bs => .bytes bs (.inr rfl)
  unfold execUpBlob at ht
  split at ht
  case isFalse => exact completed_keeps (hr _) ht
  obtain ⟨head, hhead, hrest⟩ := orFault_next ht
  obtain ⟨-, rfl⟩ := memRead_some hhead
  rw [fromBE_readBytes] at hrest
  dsimp only at hrest
  split at hrest
  case isFalse => exact completed_keeps (hr _) hrest
  case isTrue hfits =>
    obtain ⟨body, -, hbody⟩ := orFault_next hrest
    exact ⟨_, _, .unpacks s.draws rfl ⟨nofun, fun _ => rfl⟩ hfits, hr body, complete_next hbody⟩

/-- Every completed command has one of the effects and a response of its format. -/
theorem exec_next {i : Instr} {s t : State} (ht : exec i s = .next t) : Completed i s t := by
  cases commandRole i with
  | refused c _ h => cases (h s).symm.trans ht
  | packs hi hn hr h =>
    obtain ⟨bytes, hbytes, heq⟩ := h
    have hdone : Replies i .done := .of_access hn hr.symm
    rcases packWith_next (heq s ▸ ht) with ⟨hfits, -, rfl⟩ | ⟨-, rfl⟩
    · exact ⟨_, _, .packs _ hi (.of_some s hn) hfits (hbytes s.draws).1, hdone, rfl⟩
    · exact ⟨s, _, .keeps, hdone, rfl⟩
  | unpacks hi hn h =>
    obtain ⟨dec, hdec, heq⟩ := h
    rcases unpackWith_next (heq s ▸ ht) with ⟨hfits, rfl⟩ | ⟨-, rfl⟩
    · exact ⟨_, _, .unpacks _ hi (.of_some s hn) hfits,
        .of_access hn ((hdec _ _).1.trans List.length_replicate), rfl⟩
    · exact ⟨s, _, .keeps, .of_access hn List.length_replicate, rfl⟩
  | builds hi hf hl h =>
    obtain ⟨m, k, hm, rfl⟩ := h.next ht
    exact ⟨_, _, .builds k hi hf hl hm, .of_isBuild hi, rfl⟩
  | moves hi c _ h =>
    exact ⟨_, _, .moves hi (c s), .of_isCursor hi, complete_next ((h s).symm.trans ht)⟩
  | upBlob => exact execUpBlob_completed ht
  | rdcsr r => exact completed_keeps (.words rfl nofun nofun) ht
  | dump => exact execDump_completed ht
  | fpGen => exact execFpGen_completed ht
  | fpGet => exact execFpGet_completed ht
  | fpChk => exact execFpChk_completed ht

/-! ### A step -/

theorem step_of_ok {s : State} {p : Packet} {i : Instr} (hp : s.commands[s.pc]? = some p)
    (hi : decode p = .ok i) : step s = exec i s := by
  simp only [step, State.fetch, hp, hi]

theorem step_of_error {s : State} {p : Packet} {c : Cause} (hp : s.commands[s.pc]? = some p)
    (hc : decode p = .error c) : step s = .refused (.packet c) := by
  simp only [step, State.fetch, hp, hc]
  rfl

theorem step_of_none {s : State} (hp : s.commands[s.pc]? = none) : step s = .next s := by
  simp only [step, State.fetch, hp]
  rfl

/-- Settles O5, by the three branches of `step`. -/
theorem stepRunsTheNextCommand : Obligations.StepRunsTheNextCommand := fun _ =>
  ⟨fun _ _ => step_of_ok, fun _ _ => step_of_error, step_of_none⟩

/-- A step that goes on has waited or has completed a command. -/
theorem step_next {s t : State} (ht : step s = .next t) : t = s ∨ ∃ i, exec i s = .next t := by
  cases hp : s.commands[s.pc]? with
  | none => exact .inl (Host.Outcome.next.inj (step_of_none hp ▸ ht)).symm
  | some p =>
    cases hd : decode p with
    | error c => cases (step_of_error hp hd).symm.trans ht
    | ok i => exact .inr ⟨i, (step_of_ok hp hd).symm.trans ht⟩

/-! ### The reset state (10_state.md R29) -/

theorem reset_backing : State.reset.backing = 0 := rfl

/-- Settles O9: with no buffer and no cell every bound is one of 0. -/
theorem resetIsWellFormed : Obligations.ResetIsWellFormed :=
  ⟨(wf_state_iff _).2 ⟨rfl, Nat.zero_le _, rfl⟩, rfl⟩

/-- Settles O10: `Fits` of one byte or more asks for a buffer of that size. -/
theorem resetClearsTheRegisters : Obligations.ResetClearsTheRegisters := by
  refine ⟨rfl, rfl, rfl, reset_backing, rfl, fun n hn => ?_⟩
  rw [← Bool.not_eq_true, State.fits_iff, reset_backing]
  omega

/-! ### The invariants -/

theorem Effect.counters {i : Instr} {s u : State} (h : Effect i s u) :
    u.pc = s.pc ∧ u.commands = s.commands ∧ u.responses = s.responses := by
  cases h <;> exact ⟨rfl, rfl, rfl⟩

theorem Replies.header {i : Instr} {r : Response} (h : Replies i r) : r.rh = 0 := by
  cases h <;> rfl

theorem Replies.length {i : Instr} {r : Response} (h : Replies i r) :
    r.res.length = resultWords i := by
  cases h with
  | words hlen => exact hlen
  | bytes bs hi => rcases hi with rfl | rfl <;> rfl

theorem Replies.no_bytes {i : Instr} {r : Response} (h : Replies i r) (hdump : i ≠ .dump)
    (hblob : i ≠ .upBlob) : r.rdata = [] := by
  cases h with
  | words => rfl
  | bytes bs hi => exact absurd hi (not_or.2 ⟨hdump, hblob⟩)

theorem Replies.byte_count {i : Instr} {r : Response} (h : Replies i r)
    (hi : i = .dump ∨ i = .upBlob) : r.res = [BitVec.ofNat 64 r.rdata.length] := by
  cases h with
  | words _ hdump hblob => exact absurd hi (not_or.2 ⟨hdump, hblob⟩)
  | bytes => rfl

/-- Settles O13: no effect touches the list, `pc` or the responses, and then one response is sent. -/
theorem everyCommandAnswersOnce : Obligations.EveryCommandAnswersOnce := by
  intro i s t ht
  obtain ⟨u, r, heffect, hr, rfl⟩ := exec_next ht
  obtain ⟨hpc, hcommands, hresponses⟩ := heffect.counters
  exact ⟨congrArg (· + 1) hpc, hcommands, r, congrArg (· ++ [r]) hresponses, hr.header, hr.length,
    hr.no_bytes, hr.byte_count⟩

/-- A built buffer's length fits its register (10_state.md R21). -/
theorem length_toNat {l : Nat} {f : BitVec 4} (hl : l + f.toNat ≤ Config.memBytes) :
    (BitVec.ofNat 32 l).toNat = l := by
  have := memBytes_bounds
  rw [BitVec.toNat_ofNat, Nat.mod_eq_of_lt (by omega)]

theorem Effect.wf {i : Instr} {s u : State} (h : Effect i s u) (hs : s.wf = true) : u.wf = true := by
  obtain ⟨hf, hsize, hmem⟩ := (wf_state_iff s).1 hs
  rw [wf_state_iff]
  cases h with
  | keeps | moves | unpacks => exact ⟨hf, hsize, hmem⟩
  | packs k _ _ hfits hlen =>
    obtain ⟨-, hend⟩ := (State.fits_iff _ s).1 hfits
    exact ⟨hf, hsize, Memory.inBounds_writeBytes hmem (by omega)⟩
  | fingerprints _ hlen =>
    have hfpw : s.fpw.toNat ≤ s.backing := Nat.le_add_left _ _
    exact ⟨hf, hsize, Memory.inBounds_writeBytes hmem (by omega)⟩
  | builds k _ hf' hl hm =>
    refine ⟨hf', ?_, hm hmem⟩
    simpa [length_toNat hl] using hl

/-- Settles O8: waiting changes nothing, and every effect keeps the state well formed. -/
theorem stepKeepsWellFormed : Obligations.StepKeepsWellFormed := by
  intro s t hs ht
  rcases step_next ht with rfl | ⟨i, hi⟩
  · exact hs
  · obtain ⟨u, r, heffect, -, rfl⟩ := exec_next hi
    exact heffect.wf hs

/-- The move past an access that fits does not wrap (20_memory.md R57). -/
theorem cursor_add_toNat {s : State} {n : Nat} (hs : s.legal = true) (hfits : s.fits n = true) :
    (s.cursor + BitVec.ofNat 32 n).toNat = s.cursor.toNat + n := by
  obtain ⟨-, hend⟩ := (State.fits_iff n s).1 hfits
  have hsize := backing_le_of_legal hs
  have hbound := memBytes_bounds
  rw [BitVec.toNat_add, BitVec.toNat_ofNat]
  omega

theorem Effect.buffer {i : Instr} {s u : State} (h : Effect i s u) (hi : isBuild i = false) :
    u.len = s.len ∧ u.fpw = s.fpw := by
  cases h with
  | builds _ hb => exact Bool.noConfusion (hi.symm.trans hb)
  | _ => exact ⟨rfl, rfl⟩

theorem Effect.cursor {i : Instr} {s u : State} (h : Effect i s u) (hs : s.legal = true)
    (hb : isBuild i = false) (hc : isCursor i = false) :
    u.cursor = s.cursor ∨ ((isPack i = true ∨ isUnpack i = true) ∧
      ∃ n, s.fits n = true ∧ u.cursor.toNat = s.cursor.toNat + n ∧ AccessWidth i s n) := by
  cases h with
  | keeps | fingerprints => exact .inl rfl
  | moves hi => exact Bool.noConfusion (hc.symm.trans hi)
  | packs _ hi hn hfits => exact .inr ⟨.inl hi, _, hfits, cursor_add_toNat hs hfits, hn⟩
  | unpacks _ hi hn hfits => exact .inr ⟨.inr hi, _, hfits, cursor_add_toNat hs hfits, hn⟩
  | builds _ hi => exact Bool.noConfusion (hb.symm.trans hi)

/-- Payload bytes change in packs and new buffers only. -/
theorem Effect.payload {i : Instr} {s u : State} (h : Effect i s u) (hs : s.wf = true)
    (hb : isBuild i = false) (hp : isPack i = false) {x : Nat} (hx : s.fpw.toNat ≤ x) :
    u.mem.read x = s.mem.read x := by
  cases h with
  | keeps | moves | unpacks => rfl
  | packs _ hi => exact Bool.noConfusion (hp.symm.trans hi)
  | fingerprints _ hlen =>
    rw [State.store_mem, Memory.read_writeBytes _ _ _ (mem_wf_of_wf hs), if_neg (by omega)]
  | builds _ hi => exact Bool.noConfusion (hb.symm.trans hi)

/-- The fingerprint's bytes change in FP_GEN and new buffers only: a pack starts at or above them. -/
theorem Effect.fingerprint {i : Instr} {s u : State} (h : Effect i s u) (hs : s.wf = true)
    (hb : isBuild i = false) (hi : i ≠ .fpGen) {x : Nat} (hx : x < s.fpw.toNat) :
    u.mem.read x = s.mem.read x := by
  cases h with
  | keeps | moves | unpacks => rfl
  | packs _ _ _ hfits =>
    obtain ⟨hstart, -⟩ := (State.fits_iff _ s).1 hfits
    rw [State.moveTo_mem, State.drawn_mem, State.store_mem,
      Memory.read_writeBytes _ _ _ (mem_wf_of_wf hs), if_neg (by omega)]
  | fingerprints hgen => exact absurd hgen hi
  | builds _ hi => exact Bool.noConfusion (hb.symm.trans hi)

/-- Settles O14, a register and a part of the buffer at a time. -/
theorem onlyTheseWritesExist : Obligations.OnlyTheseWritesExist := by
  intro i s t hs ht hb
  obtain ⟨u, r, heffect, -, rfl⟩ := exec_next ht
  exact ⟨heffect.buffer hb, heffect.cursor (legal_of_wf hs) hb,
    fun hp _ => heffect.payload hs hb hp, fun hi _ => heffect.fingerprint hs hb hi⟩

/-! ### The cursor invariant (10_state.md R23) -/

theorem cursorOk_iff (s : State) :
    s.cursorOk = true ↔ s.fpw.toNat ≤ s.cursor.toNat ∧ s.cursor.toNat ≤ s.backing := by
  simp [State.cursorOk]

/-- No access fits where the cursor invariant is lost. -/
theorem fits_eq_false_of_cursorOk {s : State} (h : s.cursorOk = false) (n : Nat) :
    s.fits n = false := by
  rw [← Bool.not_eq_true, cursorOk_iff] at h
  rw [← Bool.not_eq_true, State.fits_iff]
  omega

theorem seekStart_cursorOk {s t : State} (ht : exec .seekStart s = .next t) : t.cursorOk = true := by
  obtain rfl := complete_next ht
  have hcursor : (s.fpw.setWidth 32).toNat = s.fpw.toNat :=
    BitVec.toNat_setWidth_of_le (by decide)
  rw [cursorOk_iff]
  exact ⟨hcursor.ge, hcursor.le.trans (Nat.le_add_left _ _)⟩

theorem seekTo_cursorOk {s t : State} {v : Op} (hs : s.legal = true)
    (ht : exec (.seekTo v) s = .next t) : t.cursorOk = true := by
  obtain rfl := complete_next ht
  have hsize : s.len.toNat + s.fpw.toNat ≤ Config.memBytes := backing_le_of_legal hs
  have hbound := memBytes_bounds
  rw [cursorOk_iff]
  simp only [State.answer_fpw, State.answer_cursor, State.answer_backing, State.moveTo_fpw,
    State.moveTo_cursor, State.moveTo_backing, BitVec.toNat_ofInt]
  rw [State.backing]
  omega

theorem build_cursorOk {i : Instr} {s t : State} (hi : isBuild i = true)
    (ht : exec i s = .next t) : t.cursorOk = true := by
  rcases build_cases hi with ⟨-, c, h⟩ | ⟨l, f, -, hl, h⟩
  · cases (h s).symm.trans ht
  · obtain ⟨m, k, -, rfl⟩ := h.next ht
    have hcursor : (f.setWidth 32).toNat = f.toNat := BitVec.toNat_setWidth_of_le (by decide)
    rw [cursorOk_iff]
    exact ⟨hcursor.ge, hcursor.le.trans (Nat.le_add_left _ _)⟩

/-- The commands that set the cursor anew leave it inside the buffer. -/
theorem cursorOk_established {i : Instr} {s t : State} (hs : s.legal = true)
    (ht : exec i s = .next t) (hi : isBuild i = true ∨ i = .seekStart ∨ ∃ v, i = .seekTo v) :
    t.cursorOk = true := by
  rcases hi with hi | rfl | ⟨v, rfl⟩
  · exact build_cursorOk hi ht
  · exact seekStart_cursorOk ht
  · exact seekTo_cursorOk hs ht

/-- An access that fits ends inside the buffer. -/
theorem cursorOk_of_fits {s u : State} {n : Nat} (hs : s.legal = true) (hfits : s.fits n = true)
    (hcursor : u.cursor = s.cursor + BitVec.ofNat 32 n) (hfpw : u.fpw = s.fpw)
    (hbacking : u.backing = s.backing) : u.cursorOk = true := by
  have hadd := cursor_add_toNat hs hfits
  obtain ⟨hstart, hend⟩ := (State.fits_iff n s).1 hfits
  rw [cursorOk_iff, hcursor, hfpw, hbacking]
  omega

theorem isCursor_cases {i : Instr} (hi : isCursor i = true) (hu : isUnchecked i = false) :
    i = .seekStart ∨ ∃ v, i = .seekTo v := by
  cases i
  case seekStart => exact .inl rfl
  case seekTo v => exact .inr ⟨v, rfl⟩
  case advance | reverse => exact Bool.noConfusion hu
  all_goals exact Bool.noConfusion hi

theorem cursorOk_kept {i : Instr} {s t : State} (hs : s.legal = true) (hok : s.cursorOk = true)
    (ht : exec i s = .next t) (hi : isUnchecked i = false) : t.cursorOk = true := by
  obtain ⟨u, r, heffect, -, rfl⟩ := exec_next ht
  cases heffect with
  | keeps | fingerprints => exact hok
  | moves hc => exact cursorOk_established hs ht (.inr (isCursor_cases hc hi))
  | packs _ _ _ hfits | unpacks _ _ _ hfits => exact cursorOk_of_fits hs hfits rfl rfl rfl
  | builds _ hb => exact cursorOk_established hs ht (.inl hb)

theorem isBuild_of_access {i : Instr} (hi : isPack i = true ∨ isUnpack i = true) :
    isBuild i = false := by
  cases i
  case construct | adopt => simp [isPack, isUnpack] at hi
  all_goals rfl

theorem isCursor_of_access {i : Instr} (hi : isPack i = true ∨ isUnpack i = true) :
    isCursor i = false := by
  cases i
  case seekStart | seekTo | advance | reverse => simp [isPack, isUnpack] at hi
  all_goals rfl

/-- A well-formed access where the cursor invariant is lost changes nothing and answers zeros. -/
theorem access_of_not_cursorOk {i : Instr} {s : State} (hok : s.cursorOk = false)
    (hw : i.wf = true) (hi : isPack i = true ∨ isUnpack i = true) :
    exec i s = .next (s.answer ⟨0, List.replicate (resultWords i) 0, []⟩) := by
  have hfits := fits_eq_false_of_cursorOk hok
  cases commandRole i with
  | refused _ hw' => exact Bool.noConfusion (hw'.symm.trans hw)
  | packs _ _ hr h =>
    obtain ⟨bytes, -, heq⟩ := h
    rw [heq, packWith_dropped (hfits _), hr]
    rfl
  | unpacks _ _ h =>
    obtain ⟨dec, -, heq⟩ := h
    rw [heq, unpackWith_under (hfits _)]
    rfl
  | builds hb => exact Bool.noConfusion ((isBuild_of_access hi).symm.trans hb)
  | moves hc => exact Bool.noConfusion ((isCursor_of_access hi).symm.trans hc)
  | upBlob => simp only [exec, execUpBlob, hfits 2]; rfl
  | rdcsr | dump | fpGen | fpGet | fpChk => simp [isPack, isUnpack] at hi

/-- Settles O15, with the reset state's empty buffer as the state that loses the invariant. -/
theorem cursorInvariant : Obligations.CursorInvariant := by
  obtain ⟨hwf, hok⟩ := resetIsWellFormed
  exact ⟨hok, fun _ _ _ => cursorOk_established, fun _ _ _ => cursorOk_kept,
    ⟨State.reset, _, hwf, hok, rfl, by decide⟩, ⟨State.reset, _, hwf, hok, rfl, by decide⟩,
    fun _ _ _ => access_of_not_cursorOk⟩

end Sys2Proof.Machine
end

section
/-! Bytes at `BACKING` and above never show (10_state.md R24): two states that agree below take the same steps, by
what each shape of command reads. -/

namespace Sys2Proof.Machine

/-! ### Agreement through the readers and the updates of the state -/

namespace Agree

variable {s u : State}

theorem same_registers (h : Agree s u) : s.cursor = u.cursor ∧ s.len = u.len ∧ s.fpw = u.fpw := by
  obtain ⟨hcursor, hlen, hfpw, -⟩ := h
  exact ⟨hcursor, hlen, hfpw⟩

theorem same_draws (h : Agree s u) : s.draws = u.draws := by
  obtain ⟨-, -, -, -, -, -, hdraws, -⟩ := h
  exact hdraws

theorem same_packet (h : Agree s u) : s.commands[s.pc]? = u.commands[u.pc]? := by
  obtain ⟨-, -, -, hpc, hcommands, -⟩ := h
  rw [hpc, hcommands]

theorem same_read (h : Agree s u) {x : Nat} (hx : x < s.backing) : s.mem.read x = u.mem.read x := by
  obtain ⟨-, -, -, -, -, -, -, hread⟩ := h
  exact hread x hx

theorem same_backing (h : Agree s u) : s.backing = u.backing := by
  obtain ⟨-, hlen, hfpw⟩ := h.same_registers
  rw [State.backing, State.backing, hlen, hfpw]

theorem same_fits (h : Agree s u) (n : Nat) : s.fits n = u.fits n := by
  obtain ⟨hcursor, -, hfpw⟩ := h.same_registers
  rw [State.fits, State.fits, hcursor, hfpw, h.same_backing]

theorem same_csr (h : Agree s u) (r : BitVec 2) : s.csr r = u.csr r := by
  obtain ⟨hcursor, hlen, hfpw⟩ := h.same_registers
  rw [State.csr, State.csr, hcursor, hlen, hfpw, h.same_backing]

theorem same_readBytes (h : Agree s u) {a n : Nat} (hn : a + n ≤ s.backing) :
    s.mem.readBytes a n = u.mem.readBytes a n :=
  Memory.readBytes_congr fun _ _ hx => h.same_read (by omega)

/-- A read inside the buffer, faulting or not. -/
theorem same_memRead (h : Agree s u) {a n : Nat} (hn : a + n ≤ s.backing) :
    s.memRead a n = u.memRead a n := by
  rw [State.memRead, State.memRead, h.same_readBytes hn]

theorem answer (h : Agree s u) (r : Response) : Agree (s.answer r) (u.answer r) := by
  obtain ⟨hcursor, hlen, hfpw, hpc, hcommands, hresponses, hdraws, hread⟩ := h
  exact ⟨hcursor, hlen, hfpw, congrArg (· + 1) hpc, hcommands, congrArg (· ++ [r]) hresponses, hdraws,
    hread⟩

theorem moveTo (h : Agree s u) (c : BitVec 32) : Agree (s.moveTo c) (u.moveTo c) := by
  obtain ⟨-, hrest⟩ := h
  exact ⟨rfl, hrest⟩

theorem drawn (h : Agree s u) (k : Nat) : Agree (s.drawn k) (u.drawn k) := by
  obtain ⟨hcursor, hlen, hfpw, hpc, hcommands, hresponses, -, hread⟩ := h
  exact ⟨hcursor, hlen, hfpw, hpc, hcommands, hresponses, rfl, hread⟩

theorem store (h : Agree s u) {m m' : Memory} (hm : ∀ x, x < s.backing → m.read x = m'.read x) :
    Agree (s.store m) (u.store m') := by
  obtain ⟨hcursor, hlen, hfpw, hpc, hcommands, hresponses, hdraws, -⟩ := h
  exact ⟨hcursor, hlen, hfpw, hpc, hcommands, hresponses, hdraws, hm⟩

/-- A new buffer agrees where its own bytes do, whatever the buffers before. -/
theorem rebuild (h : Agree s u) (l : BitVec 32) (f : BitVec 4) {m m' : Memory}
    (hm : ∀ x, x < l.toNat + f.toNat → m.read x = m'.read x) :
    Agree (s.rebuild l f m) (u.rebuild l f m') := by
  obtain ⟨-, -, -, hpc, hcommands, hresponses, hdraws, -⟩ := h
  exact ⟨rfl, rfl, rfl, hpc, hcommands, hresponses, hdraws, hm⟩

/-- The same bytes stored at the same address. -/
theorem writeBytes (h : Agree s u) (hs : s.wf = true) (hu : u.wf = true) (a : Nat) (bs : List Byte) :
    Agree (s.store (s.mem.writeBytes a bs)) (u.store (u.mem.writeBytes a bs)) :=
  h.store fun x hx => by
    rw [Memory.read_writeBytes _ _ _ (mem_wf_of_wf hs), Memory.read_writeBytes _ _ _ (mem_wf_of_wf hu),
      h.same_read hx]

end Agree

/-! ### Agreement of outcomes -/

/-- Both go on to states that agree, or both are refused with the same cause, where the first does either. -/
def AgreeAfter (o p : Result) : Prop :=
  (∀ t, o = .next t → ∃ v, p = .next v ∧ Agree t v) ∧ ∀ c, o = .refused c → p = .refused c

namespace AgreeAfter

variable {s u : State}

theorem next (h : Agree s u) : AgreeAfter (.next s) (.next u) :=
  ⟨fun t ht => ⟨u, rfl, by cases ht; exact h⟩, nofun⟩

theorem refuse (c : Cause) : AgreeAfter (refuse c) (refuse c) := ⟨nofun, fun _ hc => hc⟩

theorem complete (h : Agree s u) (r : Response) : AgreeAfter (s.complete r) (u.complete r) :=
  next (h.answer r)

theorem orFault {α : Type} (r : Option α) {k k' : α → Result} (h : ∀ x, AgreeAfter (k x) (k' x)) :
    AgreeAfter (orFault r k) (orFault r k') := by
  cases r with
  | none => exact ⟨nofun, nofun⟩
  | some x => exact h x

theorem ite (p : Prop) [Decidable p] {a b a' b' : Result} (ha : p → AgreeAfter a a')
    (hb : AgreeAfter b b') : AgreeAfter (if p then a else b) (if p then a' else b') := by
  split
  next hp => exact ha hp
  next => exact hb

end AgreeAfter

section

variable {s u : State} (h : Agree s u)

include h

theorem PacksBytes.agreeAfter {n : Nat} {f : State → Result} (hf : PacksBytes n f) (hs : s.wf = true)
    (hu : u.wf = true) : AgreeAfter (f s) (f u) := by
  obtain ⟨bytes, hbytes, heq⟩ := hf
  have hlen := (hbytes s.draws).1
  have hlen' := (hbytes u.draws).1
  rw [heq, heq]
  cases hfits : s.fits n
  · rw [packWith_dropped hfits, packWith_dropped (h.same_fits n ▸ hfits)]
    exact .next (h.answer _)
  · rw [packWith_fits (legal_of_wf hs) hfits hlen,
      packWith_fits (legal_of_wf hu) (h.same_fits n ▸ hfits) hlen', ← h.same_draws,
      ← h.same_registers.1]
    exact .next ((((h.writeBytes hs hu _ _).drawn _).moveTo _).answer _)

theorem UnpacksWords.agreeAfter {n : Nat} {zero : List Op} {f : State → Result}
    (hf : UnpacksWords n zero f) (hs : s.wf = true) (hu : u.wf = true) : AgreeAfter (f s) (f u) := by
  obtain ⟨dec, -, heq⟩ := hf
  rw [heq, heq]
  cases hfits : s.fits n
  · rw [unpackWith_under hfits, unpackWith_under (h.same_fits n ▸ hfits)]
    exact .next (h.answer _)
  · obtain ⟨-, hend⟩ := (State.fits_iff n s).1 hfits
    rw [unpackWith_fits (legal_of_wf hs) hfits,
      unpackWith_fits (legal_of_wf hu) (h.same_fits n ▸ hfits), ← h.same_draws,
      ← h.same_registers.1, ← h.same_readBytes hend]
    exact .next (((h.drawn _).moveTo _).answer _)

theorem BuildsBuffer.agreeAfter {l : Nat} {f : BitVec 4} {F : State → Result}
    (hF : BuildsBuffer l f F) (hl : l + f.toNat ≤ Config.memBytes) (hs : s.wf = true)
    (hu : u.wf = true) : AgreeAfter (F s) (F u) := by
  obtain ⟨image, fill, hlen, hfill, heq⟩ := hF
  rw [heq, heq, ← h.same_draws]
  refine .next (((h.rebuild _ _ fun x hx => ?_).drawn _).answer _)
  obtain ⟨-, hread⟩ := hfill s.draws s.mem (inBounds_of_wf hs)
  obtain ⟨-, hread'⟩ := hfill s.draws u.mem (inBounds_of_wf hu)
  have himage : x < (image s.draws).1.length := by rwa [hlen, ← length_toNat hl]
  rw [hread, hread', if_pos himage, if_pos himage]

theorem execUpBlob_agreeAfter : AgreeAfter (execUpBlob s) (execUpBlob u) := by
  unfold execUpBlob
  simp only [← h.same_fits, ← h.same_registers.1]
  refine .ite _ (fun hhead => ?_) (.complete h _)
  obtain ⟨-, hheadEnd⟩ := (State.fits_iff 2 s).1 hhead
  rw [← h.same_memRead hheadEnd]
  refine .orFault _ fun head => .ite _ (fun hbody => ?_) (.complete h _)
  obtain ⟨-, hbodyEnd⟩ := (State.fits_iff _ s).1 hbody
  rw [← h.same_memRead (by omega)]
  exact .orFault _ fun body => .complete (h.moveTo _) _

theorem execDump_agreeAfter : AgreeAfter (execDump s) (execDump u) := by
  unfold execDump
  rw [← h.same_backing, ← h.same_memRead (Nat.zero_add _).le]
  exact .orFault _ fun bs => .complete h _

/-- The bytes of the fingerprint and the payload lie inside the buffer. -/
theorem same_buffer_reads :
    s.memRead 0 s.fpw.toNat = u.memRead 0 s.fpw.toNat ∧
      s.memRead s.fpw.toNat s.len.toNat = u.memRead s.fpw.toNat s.len.toNat := by
  have hbacking : s.backing = s.len.toNat + s.fpw.toNat := rfl
  exact ⟨h.same_memRead (by omega), h.same_memRead (by omega)⟩

theorem execFpGen_agreeAfter (hs : s.wf = true) (hu : u.wf = true) :
    AgreeAfter (execFpGen s) (execFpGen u) := by
  obtain ⟨-, hlen, hfpw⟩ := h.same_registers
  obtain ⟨-, hpayload⟩ := same_buffer_reads h
  unfold execFpGen
  dsimp only
  rw [← hlen, ← hfpw, ← hpayload]
  split
  · exact .complete h _
  · refine .orFault _ fun payload => ?_
    have hfit : 0 + (beBytes s.fpw.toNat (fingerprint s.fpw.toNat payload)).length ≤
        Config.memBytes := by
      have hsize : s.len.toNat + s.fpw.toNat ≤ Config.memBytes := backing_le_of_legal (legal_of_wf hs)
      rw [beBytes_length]
      omega
    rw [memWrite_eq hfit, memWrite_eq hfit]
    exact .complete (h.writeBytes hs hu _ _) _

theorem execFpGet_agreeAfter : AgreeAfter (execFpGet s) (execFpGet u) := by
  obtain ⟨-, -, hfpw⟩ := h.same_registers
  obtain ⟨hstored, -⟩ := same_buffer_reads h
  unfold execFpGet
  dsimp only
  rw [← hfpw, ← hstored]
  exact .ite _ (fun _ => .complete h _) (.orFault _ fun bs => .complete h _)

theorem execFpChk_agreeAfter : AgreeAfter (execFpChk s) (execFpChk u) := by
  obtain ⟨-, hlen, hfpw⟩ := h.same_registers
  obtain ⟨hstored, hpayload⟩ := same_buffer_reads h
  unfold execFpChk
  dsimp only
  rw [← hlen, ← hfpw, ← hstored, ← hpayload]
  exact .ite _ (fun _ => .complete h _) (.orFault _ fun stored => .orFault _ fun payload =>
    .complete h _)

/-- Every command, by its shape. -/
theorem exec_agreeAfter (i : Instr) (hs : s.wf = true) (hu : u.wf = true) :
    AgreeAfter (exec i s) (exec i u) := by
  cases commandRole i with
  | refused c _ hc =>
    rw [hc, hc]
    exact .refuse c
  | packs _ _ _ hf => exact hf.agreeAfter h hs hu
  | unpacks _ _ hf => exact hf.agreeAfter h hs hu
  | builds _ _ hl hF => exact hF.agreeAfter h hl hs hu
  | moves _ c hc hmove =>
    obtain ⟨hcursor, hlen, hfpw⟩ := h.same_registers
    rw [hmove, hmove, hc s u hcursor hlen hfpw]
    exact .complete (h.moveTo _) _
  | upBlob => exact execUpBlob_agreeAfter h
  | rdcsr r =>
    change AgreeAfter (s.complete (.word (s.csr r))) (u.complete (.word (u.csr r)))
    rw [h.same_csr]
    exact .complete h _
  | dump => exact execDump_agreeAfter h
  | fpGen => exact execFpGen_agreeAfter h hs hu
  | fpGet => exact execFpGet_agreeAfter h
  | fpChk => exact execFpChk_agreeAfter h

end

/-- Settles O17: the two states take the same packet, and the command reads nothing above the buffer. -/
theorem bytesAboveBackingAreInvisible : Obligations.BytesAboveBackingAreInvisible := by
  intro s u hs hu h
  change AgreeAfter (step s) (step u)
  have hpacket := h.same_packet
  cases hp : s.commands[s.pc]? with
  | none =>
    rw [step_of_none hp, step_of_none (hpacket ▸ hp)]
    exact .next h
  | some p =>
    cases hd : decode p with
    | error c =>
      rw [step_of_error hp hd, step_of_error (hpacket ▸ hp) hd]
      exact .refuse c
    | ok i =>
      rw [step_of_ok hp hd, step_of_ok (hpacket ▸ hp) hd]
      exact exec_agreeAfter h i hs hu

end Sys2Proof.Machine
end

section
/-! The buffer as one byte image (20_memory.md R56, R57, R61): where an access fits in it, what DUMP answers of it,
and how ADOPT takes it up again (70_reset_and_hazards.md R284). -/

namespace Sys2Proof.Machine

/-- Settles O16: the cursor invariant is the half of `Fits` that the source's check leaves out. -/
theorem fitsIsTheSourceCheck : Obligations.FitsIsTheSourceCheck := by
  refine ⟨fun s n hok => ?_, fun _ _ => cursor_add_toNat⟩
  obtain ⟨hstart, -⟩ := (cursorOk_iff s).1 hok
  rw [State.fits_iff, and_iff_right hstart, State.backing]

/-! ### The two parts of the image (20_memory.md R61) -/

theorem Memory.readBytes_add (m : Memory) (a n k : Nat) :
    m.readBytes a (n + k) = m.readBytes a n ++ m.readBytes (a + n) k := by
  induction k with
  | zero => simp [Memory.readBytes]
  | succ k ih =>
    rw [← Nat.add_assoc, Memory.readBytes_succ, ih, Memory.readBytes_succ, List.append_assoc,
      Nat.add_assoc]

@[simp] theorem State.image_length (s : State) : s.image.length = s.backing :=
  Memory.readBytes_length _ _ _

@[simp] theorem State.fpBytes_length (s : State) : s.fpBytes.length = s.fpw.toNat :=
  Memory.readBytes_length _ _ _

theorem State.image_eq_append (s : State) : s.image = s.fpBytes ++ s.payload := by
  rw [State.image, State.backing, Nat.add_comm, Memory.readBytes_add, Nat.zero_add]
  rfl

/-- Buffers with one width and one image have the same fingerprint bytes and the same payload. -/
theorem parts_eq_of_image_eq {s t : State} (hfpw : t.fpw = s.fpw) (himage : t.image = s.image) :
    t.fpBytes = s.fpBytes ∧ t.payload = s.payload := by
  rw [State.image_eq_append, State.image_eq_append] at himage
  exact List.append_inj himage (by simp [hfpw])

/-! ### DUMP, then ADOPT (20_memory.md R61, 70_reset_and_hazards.md R284) -/

/-- DUMP of a legal state answers the image (40_buffer_cursor.md R117). -/
theorem exec_dump_of_legal {s : State} (hs : s.legal = true) :
    exec .dump s = .next (s.answer (.bytes s.image)) := by
  have hsize : 0 + s.backing ≤ Config.memBytes := by simpa using backing_le_of_legal hs
  change orFault (s.memRead 0 s.backing) _ = _
  rw [memRead_eq hsize, orFault_some]
  rfl

/-- What a well-formed ADOPT with `CF = 1` leaves: a buffer whose image is the bytes supplied
(40_buffer_cursor.md R111). -/
theorem adopt_image {f : BitVec 4} {op0 : Op} {data : List Byte} {u : State} (hu : u.wf = true)
    (h : (Instr.adopt f true false op0 data).wf = true) :
    ∃ t, exec (.adopt f true false op0 data) u = .next t ∧ t.fpw = f ∧
      t.cursor.toNat = f.toNat ∧ t.backing = data.length ∧ t.image = data := by
  obtain ⟨-, hlen, hsize, hshort⟩ := adopt_wf_iff.1 h
  have hle : f.toNat ≤ op0.toNat := by simpa using hshort
  replace hsize : op0.toNat ≤ Config.memBytes := hsize
  have hpayload : (BitVec.ofNat 32 (op0.toNat - f.toNat)).toNat = op0.toNat - f.toNat :=
    length_toNat (f := f) (by omega)
  have hbacking : (BitVec.ofNat 32 (op0.toNat - f.toNat)).toNat + f.toNat = data.length := by omega
  refine ⟨_, exec_adopt_of_wf u h, rfl, BitVec.toNat_setWidth_of_le (by decide), hbacking, ?_⟩
  rw [State.image, State.answer_backing, State.rebuild_backing, hbacking]
  exact Memory.readBytes_writeBytes 0 data (mem_wf_of_wf hu)

/-- The byte count that DUMP answers does not wrap. -/
theorem image_count_toNat {s : State} (hs : s.legal = true) :
    (BitVec.ofNat 64 s.image.length).toNat = s.backing := by
  have hsize := backing_le_of_legal hs
  have hbound := memBytes_bounds
  rw [BitVec.toNat_ofNat, State.image_length, Nat.mod_eq_of_lt (by omega)]

/-- A legal state's image passes the checks of ADOPT with `CF = 1` (60_exceptions.md R267). -/
theorem adopt_of_image_wf {s : State} (hs : s.legal = true) :
    (Instr.adopt s.fpw true false (BitVec.ofNat 64 s.image.length) s.image).wf = true := by
  obtain ⟨hfpw, hsize⟩ := (legal_iff s).1 hs
  have hcount := image_count_toNat hs
  have hle : s.fpw.toNat ≤ s.backing := Nat.le_add_left _ _
  refine adopt_wf_iff.2 ⟨hfpw, by rw [hcount, State.image_length], ?_, ?_⟩
  · change (BitVec.ofNat 64 s.image.length).toNat ≤ Config.memBytes
    rwa [hcount]
  · simp only [Bool.true_or, Bool.true_and, decide_eq_false_iff_not, not_lt, hcount, hle]

/-- Settles O31: the adopted bytes are the image, whose size and width settle `LEN` and both parts. -/
theorem dumpedImageIsAdopted : Obligations.DumpedImageIsAdopted := by
  intro s u hs hu
  obtain ⟨t, hadopt, hfpw, hcursor, hbacking, himage⟩ := adopt_image hu (adopt_of_image_wf hs)
  have hlen : t.len = s.len := by
    rw [State.image_length, State.backing, State.backing, hfpw] at hbacking
    exact BitVec.eq_of_toNat_eq (Nat.add_right_cancel hbacking)
  obtain ⟨hfp, hpayload⟩ := parts_eq_of_image_eq hfpw himage
  exact ⟨_, _, _, t, exec_dump_of_legal hs, rfl, rfl, hadopt, hlen, hfpw, hcursor, himage, hfp,
    hpayload⟩

end Sys2Proof.Machine
end

section
/-! The command encoding (30_encoding.md R81 to R89): the decoder's rows are the opcodes of the map, and `encode` and
`decode` are inverse to each other. -/

namespace Sys2Proof

/-! ### The fields of the command word (R81) -/

theorem Packet.cw_eq (p : Packet) : p.cw = p.opc ++ p.zero ++ p.mod := by
  have hupper : p.opc ++ p.zero = p.cw.extractLsb' 8 (8 + 16) :=
    BitVec.extractLsb'_append_extractLsb'_eq_extractLsb' rfl
  rw [hupper]
  exact (BitVec.extractLsb'_append_extractLsb' (w := 8 + 16) (len := 8) (x := p.cw)).symm

theorem encode_opc (i : Instr) : (encode i).opc = i.opcode :=
  calc
    _ = (i.opcode ++ (0 : BitVec 16)).extractLsb' 16 8 := BitVec.extractLsb'_append_eq_of_le (by decide)
    _ = i.opcode := BitVec.extractLsb'_append_eq_left

theorem encode_zero (i : Instr) : (encode i).zero = 0 :=
  calc
    _ = (i.opcode ++ (0 : BitVec 16)).extractLsb' 0 16 := BitVec.extractLsb'_append_eq_of_le (by decide)
    _ = 0 := BitVec.extractLsb'_append_eq_right

theorem encode_mod (i : Instr) : (encode i).mod = i.modBits := BitVec.extractLsb'_append_eq_right

/-! ### The packets that decode (R89) -/

/-- The packet belongs to the row and passes the decoder's checks (60_exceptions.md R267, steps 1 to 3). -/
structure Packet.Fits (p : Packet) (r : OpcodeRow) : Prop where
  row : rowOf p.opc = some r
  zero : p.zero = 0
  mod : p.mod &&& r.format.modZero = 0
  operands : p.op.length = r.format.operands
  data : r.format.hasData = true ∨ p.data = []

theorem decode_of_fits {p : Packet} {r : OpcodeRow} (h : p.Fits r) :
    decode p = .ok (r.build p.mod p.opAt p.data) := by
  obtain ⟨hrow, hzero, hmod, hop, hdata⟩ := h
  have hdata : (!r.format.hasData && !p.data.isEmpty) = false := by
    rcases hdata with hdata | hdata <;> simp [hdata]
  simp [decode, hrow, hzero, hmod, hop, hdata]

theorem fits_of_decode {p : Packet} {i : Instr} (h : decode p = .ok i) :
    ∃ r, p.Fits r ∧ r.build p.mod p.opAt p.data = i := by
  unfold decode at h
  split at h
  case h_1 => cases h
  case h_2 r hrow =>
    split at h
    case isTrue => cases h
    case isFalse hbits =>
      split at h
      case isTrue => cases h
      case isFalse hshape =>
        obtain ⟨hzero, hmod⟩ : p.zero = 0 ∧ p.mod &&& r.format.modZero = 0 := by simpa using hbits
        obtain ⟨hop, hdata⟩ : p.op.length = r.format.operands ∧
            (r.format.hasData = true ∨ p.data = []) := by
          simpa [← Bool.not_eq_true, ← or_iff_not_imp_left] using hshape
        exact ⟨r, ⟨hrow, hzero, hmod, hop, hdata⟩, Except.ok.inj h⟩

/-! ### Decoding undoes encoding -/

/-- All commands but four carry neither `MOD` bits nor a payload (R81, R82, R87). -/
theorem encodeRow (i : Instr) : Laws.EncodeRow.Statement i := by
  cases i
  case construct => exact Laws.EncodeRow.construct ..
  case adopt => exact Laws.EncodeRow.adopt ..
  case rdcsr => exact Laws.EncodeRow.rdcsr ..
  case pkBlob => exact Laws.EncodeRow.pkBlob ..
  all_goals exact Laws.EncodeRow.of_row rfl rfl rfl (.inr rfl) rfl

/-- Settles O1: the packet of a command fits the command's own row. -/
theorem decodeUndoesEncode : Obligations.DecodeUndoesEncode := by
  intro i
  obtain ⟨r, hrow, hmod, hop, hdata, hbuild⟩ := encodeRow i
  rw [← encode_mod] at hmod hbuild
  have hfits : (encode i).Fits r := ⟨(encode_opc i).symm ▸ hrow, encode_zero i, hmod, hop, hdata⟩
  exact (decode_of_fits hfits).trans (congrArg Except.ok hbuild)

/-! ### Encoding undoes decoding -/

namespace OpcodeRow

/-- The packet with the row's opcode, this `MOD`, as many of these operand words as the row's format has, and this
payload. -/
def packet (r : OpcodeRow) (mod : BitVec 8) (op : Nat → Op) (data : List Byte) : Packet :=
  { cw := r.opc ++ (0 : BitVec 16) ++ mod, op := (List.range r.format.operands).map op, data := data }

/-- A packet that passes the decoder's checks is the row's packet of its own fields: nothing else stands in it. -/
theorem packet_of_fits {p : Packet} {r : OpcodeRow} (h : p.Fits r) :
    r.packet p.mod p.opAt p.data = p := by
  obtain ⟨hrow, hzero, -, hop, -⟩ := h
  have hopc : r.opc = p.opc := by simpa using List.find?_some hrow
  have hcw : r.opc ++ (0 : BitVec 16) ++ p.mod = p.cw := by rw [p.cw_eq, hopc, hzero]
  have hwords : (List.range r.format.operands).map p.opAt = p.op := by
    refine List.ext_getElem (by simp [hop]) fun k _ hk => ?_
    simp [Packet.opAt, hk]
  rw [packet, hcw, hwords]

/-- What the row builds from a legal packet is encoded by that packet. -/
def Reencodes (r : OpcodeRow) : Prop :=
  ∀ (mod : BitVec 8) (op : Nat → Op) (data : List Byte), mod &&& r.format.modZero = 0 →
    (r.format.hasData = true ∨ data = []) → encode (r.build mod op data) = r.packet mod op data

namespace Reencodes

theorem construct :
    Reencodes ⟨0x01, .MI, fun mod op _ => .construct (mod.extractLsb' 0 4) (op 0)⟩ := by
  intro mod op data (hmod : mod &&& 0xF0 = 0) hdata
  obtain rfl : data = [] := hdata.resolve_left nofun
  have hbits : (mod.extractLsb' 0 4).setWidth 8 = mod := by revert mod; decide
  simp only [encode, Instr.modBits, hbits]
  rfl

theorem adopt :
    Reencodes ⟨0x02, .MID, fun mod op data =>
      .adopt (mod.extractLsb' 0 4) (mod.getLsbD 4) (mod.getLsbD 5) (op 0) data⟩ := by
  intro mod op data (hmod : mod &&& 0xC0 = 0) _
  have hbits : 0#2 ++ BitVec.ofBool (mod.getLsbD 5) ++ BitVec.ofBool (mod.getLsbD 4) ++
      mod.extractLsb' 0 4 = mod := by revert mod; decide
  simp only [encode, Instr.modBits, hbits]
  rfl

theorem rdcsr : Reencodes ⟨0x07, .M, fun mod _ _ => .rdcsr (mod.extractLsb' 0 2)⟩ := by
  intro mod op data (hmod : mod &&& 0xFC = 0) hdata
  obtain rfl : data = [] := hdata.resolve_left nofun
  have hbits : (mod.extractLsb' 0 2).setWidth 8 = mod := by revert mod; decide
  simp only [encode, Instr.modBits, hbits]
  rfl

/-- In every other format `MOD` is 0 (R81). -/
theorem of_modZero {r : OpcodeRow} (hmask : r.format.modZero = 0xFF)
    (h : ∀ op data, r.format.hasData = true ∨ data = [] →
      encode (r.build 0 op data) = r.packet 0 op data) : Reencodes r := by
  intro mod op data hmod hdata
  obtain rfl : mod = 0 := by
    rw [hmask] at hmod
    exact BitVec.and_allOnes.symm.trans hmod
  exact h op data hdata

theorem pkBlob : Reencodes ⟨0x2A, .ID, fun _ op data => .pkBlob (op 0) data⟩ :=
  of_modZero rfl fun _ _ _ => rfl

/-- Without a payload too, a packet of the row is its operand words. -/
theorem of_words {r : OpcodeRow} (hmask : r.format.modZero = 0xFF) (hnone : r.format.hasData = false)
    (h : ∀ op, encode (r.build 0 op []) = r.packet 0 op []) : Reencodes r := by
  refine of_modZero hmask fun op data hdata => ?_
  obtain rfl : data = [] := hdata.resolve_left (by simp [hnone])
  exact h op

theorem of_mem_bufferRows {r : OpcodeRow} (hr : r ∈ bufferRows) : r.Reencodes := by
  fin_cases hr
  · exact construct
  · exact adopt
  on_goal 5 => exact rdcsr
  all_goals exact of_words rfl rfl fun _ => rfl

theorem of_mem_primitivePackRows {r : OpcodeRow} (hr : r ∈ primitivePackRows) : r.Reencodes := by
  fin_cases hr
  on_goal 11 => exact pkBlob
  all_goals exact of_words rfl rfl fun _ => rfl

theorem of_mem_opcodeMap {r : OpcodeRow} (hr : r ∈ opcodeMap) : r.Reencodes := by
  simp only [opcodeMap, List.mem_append, or_assoc] at hr
  rcases hr with hr | hr | hr | hr | hr | hr | hr | hr | hr | hr
  case inl => exact of_mem_bufferRows hr
  case inr.inr.inl => exact of_mem_primitivePackRows hr
  all_goals fin_cases hr <;> exact of_words rfl rfl fun _ => rfl

end Reencodes

end OpcodeRow

/-- Settles O2: the row that built the command encodes it as the packet of its own fields, which is the packet. -/
theorem encodeUndoesDecode : Obligations.EncodeUndoesDecode := by
  intro p i h
  obtain ⟨r, hfits, rfl⟩ := fits_of_decode h
  have hr : r ∈ opcodeMap := List.mem_of_find?_eq_some hfits.row
  calc
    encode (r.build p.mod p.opAt p.data) = r.packet p.mod p.opAt p.data :=
      OpcodeRow.Reencodes.of_mem_opcodeMap hr _ _ _ hfits.mod hfits.data
    _ = p := OpcodeRow.packet_of_fits hfits

/-! ### The opcodes of the map (R86, R88) -/

theorem rowOf_isSome (b : BitVec 8) : (rowOf b).isSome = opcodeMap.any fun r => r.opc == b :=
  List.isSome_find?

/-- Settles O3: the rows' opcodes against the ranges, for each of the 256 values. -/
theorem opcodesAreExactlyTheMap : Obligations.OpcodesAreExactlyTheMap := by
  have hranges : ∀ b : BitVec 8, (opcodeMap.any fun r => r.opc == b) = Machine.opcodeLegal b := by
    decide
  exact fun b => (rowOf_isSome b).trans (hranges b)

end Sys2Proof
end

section
/-! The packets of the command rules as the spec writes them: command words as numbers (30_encoding.md R81, R87). -/

namespace Sys2Proof

/-- The command word as a number: `OPC` in bits 31 to 24, `MOD` in bits 7 to 0 (R81). -/
theorem commandWord_eq (opc mod : BitVec 8) :
    opc ++ (0 : BitVec 16) ++ mod = opc.setWidth 32 <<< 24 ||| mod.setWidth 32 := by
  have hword : (opc ++ (0 : BitVec 16) ++ mod).toNat = opc.toNat <<< 24 ||| mod.toNat := by
    rw [BitVec.toNat_append, BitVec.toNat_append, BitVec.ofNat_eq_ofNat, BitVec.toNat_ofNat,
      Nat.zero_mod, Nat.or_zero, ← Nat.shiftLeft_add]
  have hshift : opc.toNat <<< 24 < 2 ^ 32 := by rw [Nat.shiftLeft_eq]; omega
  apply BitVec.eq_of_toNat_eq
  rw [hword, BitVec.toNat_or, BitVec.toNat_shiftLeft, BitVec.toNat_setWidth_of_le (by decide),
    BitVec.toNat_setWidth_of_le (by decide), Nat.mod_eq_of_lt hshift]

/-- A packet written out: its command word as the number of the command's opcode and `MOD` bits (R81). -/
theorem encode_eq_of {i : Instr} {opc mod : BitVec 8} {cw : BitVec 32} (hopc : i.opcode = opc)
    (hmod : i.modBits = mod) (hcw : opc.setWidth 32 <<< 24 ||| mod.setWidth 32 = cw) :
    encode i = ⟨cw, i.operands, i.payload⟩ := by
  subst hopc hmod hcw
  exact congrArg (Packet.mk · i.operands i.payload) (commandWord_eq _ _)

theorem decode_of_encode {p : Packet} {i : Instr} (h : encode i = p) : decode p = .ok i :=
  h ▸ decodeUndoesEncode i

/-- Settles O4: each packet is the one its command is encoded by. -/
theorem specWordsDecode : Obligations.SpecWordsDecode := by
  unfold Obligations.SpecWordsDecode
  and_intros <;> exact decode_of_encode rfl

/-- A `MOD` bit that the row's format has no field for is refused (60_exceptions.md R267, step 2). -/
theorem decode_of_mod_ne_zero {p : Packet} {r : OpcodeRow} (hrow : rowOf p.opc = some r)
    (hmod : p.mod &&& r.format.modZero ≠ 0) : decode p = .error .reservedBits := by
  have hbits : (p.zero != 0 || p.mod &&& r.format.modZero != 0) = true := by
    rw [bne_iff_ne.2 hmod, Bool.or_true]
  simp only [decode, hrow, hbits, if_true]

theorem Packet.opc_commandWord (opc mod : BitVec 8) (op : List Op) (data : List Byte) :
    Packet.opc ⟨opc.setWidth 32 <<< 24 ||| mod.setWidth 32, op, data⟩ = opc := by
  rw [← commandWord_eq]
  calc
    _ = (opc ++ (0 : BitVec 16)).extractLsb' 16 8 := BitVec.extractLsb'_append_eq_of_le (by decide)
    _ = opc := BitVec.extractLsb'_append_eq_left

theorem Packet.mod_commandWord (opc mod : BitVec 8) (op : List Op) (data : List Byte) :
    Packet.mod ⟨opc.setWidth 32 <<< 24 ||| mod.setWidth 32, op, data⟩ = mod := by
  rw [← commandWord_eq]
  exact BitVec.extractLsb'_append_eq_right

end Sys2Proof
end

section
/-! The buffer and cursor commands (40_buffer_cursor.md R110 to R117). -/

namespace Sys2Proof.Machine

/-- A fingerprint width is the same number in the 32 bits of `CURSOR` (10_state.md R21). -/
theorem fpw_setWidth_toNat (f : BitVec 4) : (f.setWidth 32).toNat = f.toNat :=
  BitVec.toNat_setWidth_of_le (by decide)

/-- The legal fingerprint widths as numbers (00_scope.md R10). -/
theorem fpwLegal_iff_toNat_mem (f : BitVec 4) : fpwLegal f = true ↔ f.toNat ∈ [0, 1, 2, 4, 8] := by
  revert f; decide

theorem fpw_le_of_legal {f : BitVec 4} (hf : fpwLegal f = true) : f.toNat ≤ 8 := by
  revert f; decide

/-! ### A new buffer (R110, R111) -/

/-- A command that rebuilds the buffer over memory filled with `bs` has the effect R110 and R111 state. -/
theorem buildEffect_of_filled {i : Instr} {s : State} {l k : Nat} {f : BitVec 4} {m : Memory}
    {bs : List Byte} (hl : l + f.toNat ≤ Config.memBytes) (hm : Filled s.mem m bs)
    (h : exec i s = .next (((s.rebuild (BitVec.ofNat 32 l) f m).drawn (s.draws + k)).answer .done)) :
    BuildEffect i s l f.toNat bs k := by
  refine ⟨_, h, ⟨rfl, rfl, rfl⟩, length_toNat hl, rfl, fpw_setWidth_toNat f, rfl, fun x => ?_⟩
  simpa using hm.2 x

theorem encode_construct (f : BitVec 4) (c : Op) :
    encode (.construct f c) = ⟨0x01000000 ||| f.setWidth 32, [c], []⟩ := by
  have hmod : (f.setWidth 8).setWidth 32 = f.setWidth 32 := by revert f; decide
  exact encode_eq_of (opc := 0x01) rfl rfl (congrArg _ hmod)

theorem exec_construct_illegalFpw {f : BitVec 4} (c : Op) (s : State) (hf : fpwLegal f = false) :
    exec (.construct f c) s = .refused (.packet .illegalFpw) := by
  simp [exec, execConstruct, hf, refuse]

theorem exec_construct_tooLarge {f : BitVec 4} {c : Op} (s : State) (hf : fpwLegal f = true)
    (hsize : Config.memBytes < c.toNat + f.toNat) :
    exec (.construct f c) s = .refused (.packet .tooLarge) := by
  simp [exec, execConstruct, hf, hsize, refuse]

theorem exec_construct_of_fits {f : BitVec 4} {c : Op} (s : State) (hf : fpwLegal f = true)
    (hsize : c.toNat + f.toNat ≤ Config.memBytes) :
    exec (.construct f c) s =
      .next ((s.rebuild (BitVec.ofNat 32 c.toNat) f (s.mem.clear (c.toNat + f.toNat))).answer .done) := by
  simp [exec, execConstruct, hf, Nat.not_lt.2 hsize]

/-- Settles O25: the two checks in their order, and then the cleared memory. -/
theorem constructMakesAZeroedBuffer : Obligations.ConstructMakesAZeroedBuffer := by
  intro f c s hs
  rw [← fpwLegal_iff_toNat_mem]
  refine ⟨encode_construct f c, fun hf => ?_, fun hf hsize => ?_, fun hf hsize => ?_⟩
  · exact exec_construct_illegalFpw c s (Bool.eq_false_iff.2 hf)
  · exact exec_construct_tooLarge s hf hsize
  · exact buildEffect_of_filled hsize (filled_clear _ (inBounds_of_wf hs))
      (exec_construct_of_fits s hf hsize)

theorem encode_adopt (f : BitVec 4) (cf sh : Bool) (n : Op) (data : List Byte) :
    encode (.adopt f cf sh n data) =
      ⟨0x02000000 ||| (BitVec.ofBool sh).setWidth 32 <<< 5 ||| (BitVec.ofBool cf).setWidth 32 <<< 4
        ||| f.setWidth 32, [n], data⟩ := by
  have hmod : (0#2 ++ BitVec.ofBool sh ++ BitVec.ofBool cf ++ f).setWidth 32 =
      (BitVec.ofBool sh).setWidth 32 <<< 5 ||| ((BitVec.ofBool cf).setWidth 32 <<< 4 |||
        f.setWidth 32) := by
    revert f cf sh; decide
  rw [BitVec.or_assoc, BitVec.or_assoc]
  exact encode_eq_of (opc := 0x02) rfl rfl (congrArg _ hmod)

section
variable {f : BitVec 4} {cf sh : Bool} {n : Op} {data : List Byte}

theorem exec_adopt_illegalFpw (s : State) (hf : fpwLegal f = false) :
    exec (.adopt f cf sh n data) s = .refused (.packet .illegalFpw) := by
  simp [exec, execAdopt, hf, refuse]

theorem exec_adopt_badPacket (s : State) (hf : fpwLegal f = true) (hlen : data.length ≠ n.toNat) :
    exec (.adopt f cf sh n data) s = .refused (.packet .badPacket) := by
  simp [exec, execAdopt, hf, hlen, refuse]

theorem exec_adopt_tooLarge (s : State) (hf : fpwLegal f = true) (hlen : data.length = n.toNat)
    (hsize : Config.memBytes < adoptRegion f cf sh n) :
    exec (.adopt f cf sh n data) s = .refused (.packet .tooLarge) := by
  simp [exec, execAdopt, hf, hlen, hsize, refuse]

theorem exec_adopt_badLength (s : State) (hf : fpwLegal f = true) (hlen : data.length = n.toNat)
    (hsize : adoptRegion f cf sh n ≤ Config.memBytes) (hin : (cf || sh) = true)
    (hshort : n.toNat < f.toNat) :
    exec (.adopt f cf sh n data) s = .refused (.packet .badLength) := by
  simp [exec, execAdopt, hf, hlen, Nat.not_lt.2 hsize, hin, hshort, refuse]

/-- The bytes supplied are the region itself where they hold the fingerprint or are shifted for it (R111). -/
theorem adoptRegion_of_inPlace (hin : (cf || sh) = true) : adoptRegion f cf sh n = n.toNat := if_pos hin

/-- A region shorter than its fingerprint is no larger than `MEM_BYTES`: a legal width is at most 8, so `TOO_LARGE`
and `BAD_LENGTH` exclude each other. -/
theorem count_le_memBytes_of_lt_fpw (hf : fpwLegal f = true) (hshort : n.toNat < f.toNat) :
    n.toNat ≤ Config.memBytes := by
  have hwidth := fpw_le_of_legal hf
  have hbound := memBytes_bounds.1
  omega

/-- ADOPT with `CF = 1`: the bytes are the buffer, fingerprint and payload. -/
theorem adopt_whole_effect {s : State} (hs : s.wf = true)
    (h : (Instr.adopt f true sh n data).wf = true) :
    BuildEffect (.adopt f true sh n data) s (n.toNat - f.toNat) f.toNat data 0 := by
  obtain ⟨-, hlen, hsize, hshort⟩ := adopt_wf_iff.1 h
  replace hsize : n.toNat ≤ Config.memBytes := hsize
  have hle : f.toNat ≤ n.toNat := by simpa using hshort
  exact buildEffect_of_filled (by omega) (filled_writeBytes (inBounds_of_wf hs) (by omega))
    (exec_adopt_of_wf s h)

/-- ADOPT with `CF = 0`, `SH = 1`: the bytes move up behind drawn fingerprint bytes and the last ones are lost. -/
theorem adopt_shift_effect {s : State} (hs : s.wf = true)
    (h : (Instr.adopt f false true n data).wf = true) :
    BuildEffect (.adopt f false true n data) s (n.toNat - f.toNat) f.toNat
      (drawBytes s.draws f.toNat ++ data.take (n.toNat - f.toNat)) f.toNat := by
  obtain ⟨-, hlen, hsize, hshort⟩ := adopt_wf_iff.1 h
  replace hsize : n.toNat ≤ Config.memBytes := hsize
  have hle : f.toNat ≤ n.toNat := by simpa using hshort
  have hbody : (data.take (n.toNat - f.toNat)).length = n.toNat - f.toNat := by
    rw [List.length_take]; omega
  exact buildEffect_of_filled (by omega)
    (filled_body_pre (inBounds_of_wf hs) (drawBytes_length _ _) (by omega)) (exec_adopt_of_wf s h)

/-- ADOPT with `CF = 0`, `SH = 0`: a larger region, its fingerprint bytes zero. -/
theorem adopt_copy_effect {s : State} (hs : s.wf = true)
    (h : (Instr.adopt f false false n data).wf = true) :
    BuildEffect (.adopt f false false n data) s n.toNat f.toNat (List.replicate f.toNat 0 ++ data) 0 := by
  obtain ⟨-, hlen, hsize, -⟩ := adopt_wf_iff.1 h
  replace hsize : n.toNat + f.toNat ≤ Config.memBytes := hsize
  exact buildEffect_of_filled hsize
    (filled_pre_body (inBounds_of_wf hs) List.length_replicate (by omega)) (exec_adopt_of_wf s h)

end

/-- Settles O26: the four checks in their order, and then one of the three writes. -/
theorem adoptTakesTheBytes : Obligations.AdoptTakesTheBytes := by
  intro f cf sh n data s hs
  rw [← fpwLegal_iff_toNat_mem]
  refine ⟨encode_adopt f cf sh n data, fun hf => exec_adopt_illegalFpw s (Bool.eq_false_iff.2 hf),
    fun hf hlen => exec_adopt_badPacket s hf hlen, fun hf hlen => ⟨fun hin => ?_, ?_⟩⟩
  · have hin : (cf || sh) = true := by simpa using hin
    have hregion := adoptRegion_of_inPlace (f := f) (n := n) hin
    refine ⟨fun hsize => exec_adopt_tooLarge s hf hlen (hregion ▸ hsize), fun hshort => ?_,
      fun hle hsize => ?_⟩
    · exact exec_adopt_badLength s hf hlen (hregion ▸ count_le_memBytes_of_lt_fpw hf hshort) hin hshort
    · have hwf : (Instr.adopt f cf sh n data).wf = true :=
        adopt_wf_iff.2 ⟨hf, hlen, hregion ▸ hsize, by simp [Nat.not_lt.2 hle]⟩
      constructor
      · rintro rfl
        exact adopt_whole_effect hs hwf
      · rintro rfl
        obtain rfl : sh = true := hin
        exact ⟨_, drawBytes_length _ _, adopt_shift_effect hs hwf⟩
  · rintro rfl rfl
    exact ⟨fun hsize => exec_adopt_tooLarge s hf hlen hsize,
      fun hsize => adopt_copy_effect hs (adopt_wf_iff.2 ⟨hf, hlen, hsize, rfl⟩)⟩

/-! ### The cursor (R112 to R115) -/

theorem cursorEffect_of_moveTo {i : Instr} {s : State} {c : BitVec 32}
    (h : exec i s = (s.moveTo c).complete .done) : CursorEffect i s c.toNat :=
  ⟨_, h, ⟨rfl, rfl, rfl⟩, ⟨rfl, rfl⟩, rfl, rfl, rfl⟩

theorem seekStart_effect (s : State) : CursorEffect .seekStart s s.fpw.toNat :=
  fpw_setWidth_toNat s.fpw ▸ cursorEffect_of_moveTo rfl

/-- SEEK_TO of an index that clamps to `c` puts the cursor `c` bytes into the payload: in a legal state the
sum does not wrap. -/
theorem seekTo_effect {s : State} {v : Op} {c : Nat} (hs : s.legal = true)
    (hc : max 0 (min v.toInt ((s.len.toNat : Int) - 1)) = c) :
    CursorEffect (.seekTo v) s (s.fpw.toNat + c) := by
  have hsize : s.len.toNat + s.fpw.toNat ≤ Config.memBytes := backing_le_of_legal hs
  have hbound := memBytes_bounds
  have hcursor : (BitVec.ofInt 32 ((s.fpw.toNat : Int) + c)).toNat = s.fpw.toNat + c := by
    rw [BitVec.toNat_ofInt]
    omega
  rw [← hcursor, ← hc]
  exact cursorEffect_of_moveTo rfl

/-- Settles O27: the index clamps to 0, to itself or to `LEN - 1`. -/
theorem seekCommandsSetTheCursor : Obligations.SeekCommandsSetTheCursor := by
  intro v s hs
  refine ⟨rfl, seekStart_effect s, encode_eq_of (opc := 0x04) (mod := 0) rfl rfl rfl,
    fun hlow => ?_, fun hnonneg hlt => ?_, fun hlen hge => ?_⟩
  · have hlow : v.toInt < 0 ∨ s.len.toNat = 0 := hlow.imp_right (congrArg BitVec.toNat)
    exact seekTo_effect (c := 0) hs (by omega)
  · exact seekTo_effect hs (by omega)
  · have hpos : s.len.toNat ≠ 0 := fun h => hlen (BitVec.eq_of_toNat_eq h)
    have hlast : s.backing - 1 = s.fpw.toNat + (s.len.toNat - 1) := by rw [State.backing]; omega
    exact hlast ▸ seekTo_effect hs (by omega)

/-- Settles O28: both moves are the machine word's own addition and subtraction. -/
theorem advanceAndReverseWrap : Obligations.AdvanceAndReverseWrap := by
  intro v s
  have hadd : (s.cursor + v.setWidth 32).toNat = (s.cursor.toNat + v.toNat % 2 ^ 32) % 2 ^ 32 := by
    rw [BitVec.toNat_add, BitVec.toNat_setWidth]
  have hsub : (s.cursor - v.setWidth 32).toNat =
      (s.cursor.toNat + 2 ^ 32 - v.toNat % 2 ^ 32) % 2 ^ 32 := by
    rw [BitVec.toNat_sub, BitVec.toNat_setWidth]
    omega
  exact ⟨encode_eq_of (opc := 0x05) (mod := 0) rfl rfl rfl,
    encode_eq_of (opc := 0x06) (mod := 0) rfl rfl rfl, hadd ▸ cursorEffect_of_moveTo rfl,
    hsub ▸ cursorEffect_of_moveTo rfl⟩

/-! ### The registers and the image (R116, R117) -/

theorem encode_rdcsr (r : BitVec 2) : encode (.rdcsr r) = ⟨0x07000000 ||| r.setWidth 32, [], []⟩ := by
  have hmod : (r.setWidth 8).setWidth 32 = r.setWidth 32 := by revert r; decide
  exact encode_eq_of (opc := 0x07) rfl rfl (congrArg _ hmod)

/-- A register number above 3 sets a bit of `MOD[7:2]`. -/
theorem decode_rdcsr_reservedBits {m : BitVec 8} (hm : 4 ≤ m.toNat) :
    decode ⟨0x07000000 ||| m.setWidth 32, [], []⟩ = .error .reservedBits := by
  have hbits : m &&& 0xFC ≠ 0 := by revert m; decide
  refine decode_of_mod_ne_zero (r := ⟨0x07, .M, fun mod _ _ => .rdcsr (mod.extractLsb' 0 2)⟩)
    ?_ ?_
  · exact (congrArg rowOf (Packet.opc_commandWord 0x07 m [] [])).trans rfl
  · exact (Packet.mod_commandWord 0x07 m [] []).symm ▸ hbits

/-- Settles O29: the four registers zero-extended, and the decoder's check of `MOD`. -/
theorem rdcsrReadsARegister : Obligations.RdcsrReadsARegister := by
  refine ⟨fun s => ?_, encode_rdcsr, fun m => decode_rdcsr_reservedBits⟩
  simp only [BitVec.ofNat_toNat]
  exact ⟨rfl, rfl, rfl, rfl⟩

theorem Memory.readBytes_eq_map (m : Memory) (a n : Nat) :
    m.readBytes a n = (List.range n).map fun k => m.read (a + k) := by
  induction n with
  | zero => rfl
  | succ n ih => rw [Memory.readBytes_succ, ih, List.range_succ, List.map_append]; rfl

theorem State.image_eq_map (s : State) : s.image = (List.range s.backing).map s.mem.read := by
  simp [State.image, Memory.readBytes_eq_map]

/-- Settles O30: the response is the image with its byte count. -/
theorem dumpAnswersTheWireImage : Obligations.DumpAnswersTheWireImage := by
  intro s hs
  refine ⟨rfl, ?_⟩
  rw [exec_dump_of_legal hs, Response.bytes, State.image_length, State.image_eq_map]
  rfl

end Sys2Proof.Machine
end

section
/-! The fingerprint commands (41_fingerprint.md R131 to R134): what each writes or answers in a legal state. -/

namespace Sys2Proof.Machine

/-! ### The rules' bytes (00_scope.md R12) -/

theorem leBytes_eq_specLE (n v : Nat) : leBytes n v = specLE n v := by
  induction n generalizing v with
  | zero => rfl
  | succ n ih =>
    have hshift : ∀ i, v >>> (8 * (i + 1)) = (v / 256) >>> (8 * i) := fun i => by
      rw [Nat.mul_succ, Nat.add_comm, Nat.shiftRight_add, Nat.shiftRight_eq_div_pow v 8]
    simp [leBytes, ih, specLE, List.range_succ_eq_map, hshift]

theorem beBytes_eq_specBE (n v : Nat) : beBytes n v = specBE n v := by
  rw [beBytes, leBytes_eq_specLE]
  refine List.ext_getElem (by simp [specLE, specBE]) fun k _ _ => ?_
  simp [specLE, specBE]

/-! ### The stored value and the payload's own -/

theorem fromBE_fpBytes (s : State) : fromBE s.fpBytes = beWord s.mem 0 s.fpw.toNat :=
  fromBE_readBytes _ _ _

/-- The fingerprint that the payload as it stands has (R131). -/
def State.fpValue (s : State) : Nat := fingerprint s.fpw.toNat s.payload

/-- The truncated hash has no more bits than the bytes it is stored in. -/
theorem State.fpValue_lt (s : State) : s.fpValue < 256 ^ s.fpw.toNat := by
  have hpow : (256 : Nat) ^ s.fpw.toNat = 2 ^ (8 * s.fpw.toNat) := by rw [Nat.pow_mul]
  rw [hpow]
  exact Nat.mod_lt _ (Nat.two_pow_pos _)

/-- The value stored is the fingerprint of the payload. -/
abbrev State.FpValid (s : State) : Prop := fromBE s.fpBytes = s.fpValue

/-- With `FPW = 0` both numbers have no bits. -/
theorem fpValid_of_fpw_toNat_eq_zero {s : State} (hzero : s.fpw.toNat = 0) : s.FpValid := by
  have hstored : fromBE s.fpBytes < 256 ^ s.fpBytes.length := fromBE_lt _
  have hvalue := s.fpValue_lt
  rw [State.fpBytes_length, hzero] at hstored
  rw [hzero] at hvalue
  rw [State.FpValid]
  omega

/-! ### The commands -/

section
variable {s : State} (hs : s.legal = true)
include hs

/-- The fingerprint and the payload lie in memory (20_memory.md R61). -/
theorem parts_le_memBytes :
    0 + s.fpw.toNat ≤ Config.memBytes ∧ s.fpw.toNat + s.len.toNat ≤ Config.memBytes := by
  have hsize : s.len.toNat + s.fpw.toNat ≤ Config.memBytes := backing_le_of_legal hs
  omega

/-- FP_GEN of every width: with `FPW = 0` there is no byte to write. -/
theorem exec_fpGen_of_legal :
    exec .fpGen s =
      .next ((s.store (s.mem.writeBytes 0 (beBytes s.fpw.toNat s.fpValue))).answer .done) := by
  obtain ⟨hstored, hpayload⟩ := parts_le_memBytes hs
  change execFpGen s = _
  unfold execFpGen
  dsimp only
  split
  next hzero => rw [hzero]; rfl
  next =>
    rw [memRead_eq hpayload, orFault_some, memWrite_eq (by rwa [beBytes_length]), orFault_some]
    rfl

/-- FP_GET of every width: no bytes read as 0. -/
theorem exec_fpGet_of_legal : exec .fpGet s = .next (s.answer (.word (zextBE s.fpBytes))) := by
  obtain ⟨hstored, -⟩ := parts_le_memBytes hs
  change execFpGet s = _
  unfold execFpGet
  dsimp only
  split
  next hzero => rw [State.fpBytes, hzero]; rfl
  next =>
    rw [memRead_eq hstored, orFault_some]
    rfl

/-- FP_CHK of every width: with `FPW = 0` the fingerprint is valid. -/
theorem exec_fpChk_of_legal :
    exec .fpChk s = .next (s.answer (.word (if s.FpValid then 1 else 0))) := by
  obtain ⟨hstored, hpayload⟩ := parts_le_memBytes hs
  change execFpChk s = _
  unfold execFpChk
  dsimp only
  split
  next hzero => rw [if_pos (fpValid_of_fpw_toNat_eq_zero hzero)]; rfl
  next =>
    rw [memRead_eq hstored, orFault_some, memRead_eq hpayload, orFault_some]
    rfl

theorem exec_fpChk_of_fpValid (hvalid : s.FpValid) :
    exec .fpChk s = .next (s.answer ⟨0, [1], []⟩) := by
  rw [exec_fpChk_of_legal hs, if_pos hvalid]
  rfl

theorem exec_fpChk_of_fpw_eq_zero (hzero : s.fpw = 0) :
    exec .fpChk s = .next (s.answer ⟨0, [1], []⟩) :=
  exec_fpChk_of_fpValid hs (fpValid_of_fpw_toNat_eq_zero (congrArg BitVec.toNat hzero))

end

/-- Settles O21: the rule's bytes are the model's, and their write is the one change. -/
theorem fpGenWritesTheFingerprint : Obligations.FpGenWritesTheFingerprint := by
  intro s hs
  refine ⟨rfl, _, exec_fpGen_of_legal (legal_of_wf hs), ⟨rfl, rfl, rfl⟩, ⟨rfl, rfl⟩, rfl, rfl,
    fun x => ?_⟩
  rw [beBytes_eq_specBE]
  exact Memory.read_writeBytes 0 _ x (mem_wf_of_wf hs)

/-- Settles O22: the fingerprint's bytes are read as one big-endian number. -/
theorem fpGetAnswersTheStoredPrefix : Obligations.FpGetAnswersTheStoredPrefix := by
  intro s hs
  refine ⟨rfl, ?_⟩
  rw [exec_fpGet_of_legal hs, zextBE, fromBE_fpBytes]
  rfl

/-- Settles O23: the comparison is of the number read and the number recomputed. -/
theorem fpChkComparesStoredWithRecomputed : Obligations.FpChkComparesStoredWithRecomputed := by
  intro s hs
  refine ⟨rfl, exec_fpChk_of_fpw_eq_zero hs, fun _ => ?_⟩
  rw [exec_fpChk_of_legal hs]
  simp only [State.FpValid, fromBE_fpBytes]
  rfl

end Sys2Proof.Machine
end

section
/-! Well-formed commands complete in legal states (00_scope.md R15, 60_exceptions.md R265), what they leave of the two
parts of the buffer (10_state.md R28), and lists of commands one after another. -/

namespace Sys2Proof.Machine

/-! ### Completion -/

/-- The length bytes and the body of a blob are read only where they lie inside the buffer. -/
theorem upBlob_completes {s : State} (hs : s.legal = true) : Completes .upBlob s := by
  have hsize := backing_le_of_legal hs
  change ∃ t, execUpBlob s = .next t
  unfold execUpBlob
  split
  case isFalse => exact ⟨_, rfl⟩
  case isTrue hhead =>
    obtain ⟨-, hheadEnd⟩ := (State.fits_iff 2 s).1 hhead
    rw [memRead_eq (by omega), orFault_some]
    dsimp only
    split
    case isFalse => exact ⟨_, rfl⟩
    case isTrue hbody =>
      obtain ⟨-, hbodyEnd⟩ := (State.fits_iff _ s).1 hbody
      rw [memRead_eq (by omega), orFault_some]
      exact ⟨_, rfl⟩

/-- Every command that no operand check refuses completes in a legal state, by its shape. -/
theorem exec_completes {i : Instr} {s : State} (hs : s.legal = true) (hw : i.wf = true) :
    Completes i s := by
  cases commandRole i with
  | refused _ hw' => exact Bool.noConfusion (hw'.symm.trans hw)
  | packs _ _ _ h => exact h.completes hs
  | unpacks _ _ h => exact h.completes hs
  | builds _ _ _ h =>
    obtain ⟨_, _, -, -, heq⟩ := h
    exact ⟨_, heq s⟩
  | moves _ _ _ h => exact ⟨_, h s⟩
  | upBlob => exact upBlob_completes hs
  | rdcsr r => exact ⟨_, rfl⟩
  | dump => exact ⟨_, exec_dump_of_legal hs⟩
  | fpGen => exact ⟨_, exec_fpGen_of_legal hs⟩
  | fpGet => exact ⟨_, exec_fpGet_of_legal hs⟩
  | fpChk => exact ⟨_, exec_fpChk_of_legal hs⟩

/-- Only packs and new buffers have operand checks. -/
theorem wf_of_not_pack_of_not_build {i : Instr} (hp : isPack i = false) (hb : isBuild i = false) :
    i.wf = true := by
  cases i
  case construct | adopt => exact Bool.noConfusion hb
  case pkBlob => exact Bool.noConfusion hp
  all_goals rfl

/-! ### What a command leaves -/

section
variable {i : Instr} {s t : State} (hs : s.wf = true) (ht : exec i s = .next t)
include hs ht

theorem exec_keeps_wf : t.wf = true := by
  obtain ⟨u, r, heffect, -, rfl⟩ := exec_next ht
  exact heffect.wf hs

theorem exec_keeps_buffer (hb : isBuild i = false) : t.len = s.len ∧ t.fpw = s.fpw := by
  obtain ⟨hbuffer, -⟩ := onlyTheseWritesExist i s t hs ht hb
  exact hbuffer

theorem exec_keeps_payload (hb : isBuild i = false) (hp : isPack i = false) :
    t.payload = s.payload := by
  obtain ⟨⟨hlen, hfpw⟩, -, hread, -⟩ := onlyTheseWritesExist i s t hs ht hb
  rw [State.payload, State.payload, hlen, hfpw]
  exact Memory.readBytes_congr fun x hx _ => hread hp x hx

theorem exec_keeps_fpBytes (hb : isBuild i = false) (hi : i ≠ .fpGen) : t.fpBytes = s.fpBytes := by
  obtain ⟨⟨-, hfpw⟩, -, -, hread⟩ := onlyTheseWritesExist i s t hs ht hb
  rw [State.fpBytes, State.fpBytes, hfpw]
  exact Memory.readBytes_congr fun x _ hx => hread hi x (by omega)

end

/-! ### Commands one after another -/

theorem execAll_cons_of_next {i : Instr} {is : List Instr} {s u : State} (h : exec i s = .next u) :
    execAll (i :: is) s = execAll is u := by
  simp only [execAll, h]

theorem execAll_cons_next {i : Instr} {is : List Instr} {s t : State}
    (h : execAll (i :: is) s = .next t) : ∃ u, exec i s = .next u ∧ execAll is u = .next t := by
  cases hi : exec i s with
  | next u => exact ⟨u, rfl, execAll_cons_of_next hi ▸ h⟩
  | fault _ | refused _ =>
    simp only [execAll, hi] at h
    cases h

section
variable {P : State → Prop} {is : List Instr} {s : State}
  (hkeeps : ∀ i ∈ is, ∀ u v, P u → exec i u = .next v → P v) (hs : P s)
include hkeeps hs

/-- What every command of a list keeps holds after the list. -/
theorem execAll_keeps {t : State} (h : execAll is s = .next t) : P t := by
  induction is generalizing s with
  | nil => cases h; exact hs
  | cons i is ih =>
    obtain ⟨hi, his⟩ := List.forall_mem_cons.1 hkeeps
    obtain ⟨u, hu, hrest⟩ := execAll_cons_next h
    exact ih his (hi s u hs hu) hrest

/-- A list completes whose commands all complete where the property that they keep holds. -/
theorem execAll_completes (hnext : ∀ i ∈ is, ∀ u, P u → Completes i u) :
    ∃ t, execAll is s = .next t := by
  induction is generalizing s with
  | nil => exact ⟨s, rfl⟩
  | cons i is ih =>
    obtain ⟨hi, his⟩ := List.forall_mem_cons.1 hkeeps
    obtain ⟨hinext, hisnext⟩ := List.forall_mem_cons.1 hnext
    obtain ⟨u, hu⟩ := hinext s hs
    rw [execAll_cons_of_next hu]
    exact ih his (hi s u hs hu) hisnext

end

end Sys2Proof.Machine
end

section
/-! The fingerprint after FP_GEN (41_fingerprint.md R135): it is valid, and stays valid while its bytes and the payload
stay. -/

namespace Sys2Proof.Machine

/-- What FP_GEN writes reads back as the fingerprint of the payload, which it leaves alone. -/
theorem fpGen_fpValid {s t : State} (hs : s.wf = true) (ht : exec .fpGen s = .next t) :
    t.FpValid := by
  have hbytes : t.fpBytes = beBytes s.fpw.toNat s.fpValue := by
    cases (exec_fpGen_of_legal (legal_of_wf hs)).symm.trans ht
    have hback := Memory.readBytes_writeBytes 0 (beBytes s.fpw.toNat s.fpValue) (mem_wf_of_wf hs)
    rwa [beBytes_length] at hback
  obtain ⟨-, hfpw⟩ := exec_keeps_buffer hs ht rfl
  calc
    fromBE t.fpBytes = s.fpValue := by
      rw [hbytes, fromBE_beBytes, Nat.mod_eq_of_lt s.fpValue_lt]
    _ = t.fpValue := by
      rw [State.fpValue, State.fpValue, hfpw, exec_keeps_payload hs ht rfl rfl]

/-- A valid fingerprint is valid in every state with the same width, stored bytes and payload. -/
theorem State.FpValid.congr {s t : State} (hs : s.FpValid) (hfpw : t.fpw = s.fpw)
    (hbytes : t.fpBytes = s.fpBytes) (hpayload : t.payload = s.payload) : t.FpValid := by
  rw [State.FpValid, State.fpValue, hbytes, hfpw, hpayload]
  exact hs

/-! ### Commands that do not write the payload (R135 (a)) -/

/-- A well-formed state that stores the fingerprint of its payload. -/
structure FpSound (s : State) : Prop where
  wf : s.wf = true
  valid : s.FpValid

theorem fpGen_fpSound {s t : State} (hs : s.wf = true) (ht : exec .fpGen s = .next t) : FpSound t :=
  ⟨exec_keeps_wf hs ht, fpGen_fpValid hs ht⟩

/-- FP_GEN makes the fingerprint valid anew, and every other command that is no pack leaves both parts. -/
theorem exec_keeps_fpSound {i : Instr} (hp : isPack i = false) (hb : isBuild i = false)
    {s t : State} (hs : FpSound s) (ht : exec i s = .next t) : FpSound t := by
  by_cases hi : i = .fpGen
  · subst hi
    exact fpGen_fpSound hs.wf ht
  · obtain ⟨-, hfpw⟩ := exec_keeps_buffer hs.wf ht hb
    exact ⟨exec_keeps_wf hs.wf ht, hs.valid.congr hfpw (exec_keeps_fpBytes hs.wf ht hb hi)
      (exec_keeps_payload hs.wf ht hb hp)⟩

theorem fpChk_after_nonwriting {s : State} {is : List Instr} (hs : s.wf = true)
    (his : ∀ i ∈ is, isPack i = false ∧ isBuild i = false) :
    ∃ t, execAll (.fpGen :: is) s = .next t ∧
      exec .fpChk t = .next (t.answer ⟨0, [1], []⟩) := by
  have hkeeps : ∀ i ∈ is, ∀ u v, FpSound u → exec i u = .next v → FpSound v := fun i hi _ _ => by
    obtain ⟨hp, hb⟩ := his i hi
    exact exec_keeps_fpSound hp hb
  have hnext : ∀ i ∈ is, ∀ u, FpSound u → Completes i u := fun i hi _ hu => by
    obtain ⟨hp, hb⟩ := his i hi
    exact exec_completes (legal_of_wf hu.wf) (wf_of_not_pack_of_not_build hp hb)
  have hgen := exec_fpGen_of_legal (legal_of_wf hs)
  have hsound := fpGen_fpSound hs hgen
  obtain ⟨t, ht⟩ := execAll_completes hkeeps hsound hnext
  obtain ⟨hwf, hvalid⟩ := execAll_keeps hkeeps hsound ht
  exact ⟨t, (execAll_cons_of_next hgen).trans ht, exec_fpChk_of_fpValid (legal_of_wf hwf) hvalid⟩

/-! ### Commands that happen to leave the payload as it was, packs among them -/

/-- The later state is well formed and has the earlier one's fingerprint width and bytes. -/
structure KeepsPrefix (s t : State) : Prop where
  wf : t.wf = true
  fpw : t.fpw = s.fpw
  fpBytes : t.fpBytes = s.fpBytes

theorem exec_keepsPrefix {i : Instr} (hb : isBuild i = false) (hi : i ≠ .fpGen) {s t u : State}
    (h : KeepsPrefix s t) (hu : exec i t = .next u) : KeepsPrefix s u := by
  obtain ⟨-, hfpw⟩ := exec_keeps_buffer h.wf hu hb
  exact ⟨exec_keeps_wf h.wf hu, hfpw.trans h.fpw,
    (exec_keeps_fpBytes h.wf hu hb hi).trans h.fpBytes⟩

theorem fpChk_after_same_payload {s t : State} {is : List Instr} (hs : s.wf = true)
    (his : ∀ i ∈ is, isBuild i = false ∧ i ≠ .fpGen) (ht : execAll (.fpGen :: is) s = .next t)
    (hpayload : t.payload = s.payload) : exec .fpChk t = .next (t.answer ⟨0, [1], []⟩) := by
  obtain ⟨u, hu, hrest⟩ := execAll_cons_next ht
  have hkeeps : ∀ i ∈ is, ∀ v w, KeepsPrefix u v → exec i v = .next w → KeepsPrefix u w :=
    fun i hi _ _ => by
      obtain ⟨hb, hgen⟩ := his i hi
      exact exec_keepsPrefix hb hgen
  obtain ⟨hwf, hfpw, hbytes⟩ := execAll_keeps hkeeps ⟨exec_keeps_wf hs hu, rfl, rfl⟩ hrest
  have hsame : t.payload = u.payload := hpayload.trans (exec_keeps_payload hs hu rfl rfl).symm
  exact exec_fpChk_of_fpValid (legal_of_wf hwf) ((fpGen_fpValid hs hu).congr hfpw hbytes hsame)

/-- Settles O24: FP_GEN makes the fingerprint valid, and it stays so by induction over the commands that follow. -/
theorem fingerprintValidAfterGeneration : Obligations.FingerprintValidAfterGeneration := by
  intro s hs
  refine ⟨fun _ => fpChk_after_nonwriting hs, fun _ _ => fpChk_after_same_payload hs,
    exec_fpChk_of_fpw_eq_zero (legal_of_wf hs), fun u hfpw _ hpayload => ?_⟩
  rw [hfpw, hpayload]

end Sys2Proof.Machine
end

section
/-! The effects of the two access templates (20_memory.md R57, R58): what a command does that is a pack or an unpack,
and what a pack, a move back over it and an unpack do one after another (42_primitive.md R164, 43_quantization.md
R202). -/

namespace Sys2Proof.Machine

/-! ### One access -/

/-- A command that is the pack template, where its bytes fit. -/
theorem packEffect_of_packWith {i : Instr} {s : State} {n k : Nat} {bytes : Nat → List Byte × Nat}
    {bs : List Byte} (hs : s.wf = true) (hfits : s.fits n = true)
    (hexec : exec i s = s.packWith n bytes) (hbytes : bytes s.draws = (bs, s.draws + k))
    (hlen : bs.length = n) : PackEffect i s bs k := by
  have hnext := packWith_fits (bytes := bytes) (legal_of_wf hs) hfits (by rw [hbytes, hlen])
  rw [hbytes] at hnext
  exact ⟨_, hexec.trans hnext, ⟨rfl, rfl, rfl⟩, ⟨rfl, rfl⟩, rfl,
    (cursor_add_toNat (legal_of_wf hs) hfits).trans (congrArg _ hlen.symm),
    fun x => Memory.read_writeBytes _ bs x (mem_wf_of_wf hs)⟩

/-- A command that is the unpack template, where its bytes fit. -/
theorem unpackEffect_of_unpackWith {i : Instr} {s : State} {n k : Nat}
    {dec : List Byte → Nat → List Op × Nat} {zero ws : List Op} (hs : s.legal = true)
    (hfits : s.fits n = true) (hexec : exec i s = s.unpackWith n dec zero)
    (hdec : dec (s.mem.readBytes s.cursor.toNat n) s.draws = (ws, s.draws + k)) :
    UnpackEffect i s n ws k := by
  have hnext := unpackWith_fits (dec := dec) (zero := zero) hs hfits
  rw [hdec] at hnext
  exact ⟨_, hexec.trans hnext, ⟨rfl, rfl, rfl⟩, ⟨rfl, rfl⟩, rfl, cursor_add_toNat hs hfits, rfl⟩

theorem packRule_of_pack {i : Instr} {s : State} {p : Packet} {bs : List Byte} (hs : s.wf = true)
    (hp : encode i = p) (hexec : exec i s = s.pack bs) : PackRule i p bs s :=
  ⟨hp, fun hfits => packEffect_of_packWith hs hfits hexec rfl rfl,
    fun hfits => hexec.trans (packWith_dropped hfits)⟩

theorem unpackRule_of_unpack {i : Instr} {s : State} {p : Packet} {n : Nat} {dec : List Byte → Op}
    {w : Op} (hs : s.legal = true) (hp : encode i = p) (hexec : exec i s = s.unpack n dec)
    (hw : dec (s.mem.readBytes s.cursor.toNat n) = w) : UnpackRule i p n w s :=
  ⟨hp, fun hfits => unpackEffect_of_unpackWith hs hfits hexec (by rw [hw]; rfl),
    fun hfits => hexec.trans (unpackWith_under hfits)⟩

/-! ### A pack and the move back over it -/

/-- Going back as many bytes as an access moved the cursor undoes the move (40_buffer_cursor.md R115). -/
theorem cursor_add_sub (c : BitVec 32) (n : Nat) :
    c + BitVec.ofNat 32 n - (BitVec.ofNat 64 n).setWidth 32 = c := by
  rw [BitVec.setWidth_ofNat_of_le (by decide), BitVec.add_sub_cancel]

theorem Stores.readBytes {s t : State} {a : Nat} {bs : List Byte} (h : Stores s t a bs) :
    t.mem.readBytes a bs.length = bs := by
  refine List.ext_getElem (Memory.readBytes_length _ _ _) fun k hk hk' => ?_
  rw [List.getElem_eq_getD 0, List.getElem_eq_getD 0, Memory.readBytes_getD _ _ _ _ hk', h,
    if_pos (by omega), Nat.add_sub_cancel_left]

/-- `u` is `s` after a pack of `bs` and the move back over them: the bytes stand at the cursor. -/
structure Rewound (s u : State) (bs : List Byte) : Prop where
  buffer : SameBuffer s u
  cursor : u.cursor = s.cursor
  bytes : u.mem.readBytes u.cursor.toNat bs.length = bs
  pc : u.pc = s.pc + 2
  responses : u.responses = s.responses ++ [.done, .done]

namespace Rewound

variable {s u : State} {bs : List Byte} (h : Rewound s u bs)
include h

theorem backing : u.backing = s.backing := by
  obtain ⟨hlen, hfpw⟩ := h.buffer
  rw [State.backing, State.backing, hlen, hfpw]

theorem legal (hs : s.legal = true) : u.legal = true := by
  obtain ⟨-, hfpw⟩ := h.buffer
  rw [legal_iff, h.backing, hfpw]
  exact (legal_iff s).1 hs

theorem fits {n : Nat} (hfits : s.fits n = true) : u.fits n = true := by
  obtain ⟨-, hfpw⟩ := h.buffer
  rw [State.fits_iff, h.cursor, h.backing, hfpw]
  exact (State.fits_iff n s).1 hfits

end Rewound

theorem pack_then_reverse {pk : Instr} {s : State} {bs : List Byte} {k : Nat}
    (hpk : PackEffect pk s bs k) (is : List Instr) :
    ∃ u, Rewound s u bs ∧
      execAll (pk :: .reverse (BitVec.ofNat 64 bs.length) :: is) s = execAll is u := by
  obtain ⟨t, ht, ⟨hpc, hresponses, -⟩, hbuffer, -, hcursor, hstores⟩ := hpk
  have hback : t.cursor - (BitVec.ofNat 64 bs.length).setWidth 32 = s.cursor := by
    have hmove : t.cursor = s.cursor + BitVec.ofNat 32 bs.length := by
      apply BitVec.eq_of_toNat_eq
      rw [hcursor, BitVec.toNat_add, BitVec.toNat_ofNat, Nat.add_mod_mod, ← hcursor,
        Nat.mod_eq_of_lt t.cursor.isLt]
    rw [hmove, cursor_add_sub]
  have hreverse : exec (.reverse (BitVec.ofNat 64 bs.length)) t =
      .next ((t.moveTo s.cursor).answer .done) := by
    rw [← hback]
    rfl
  refine ⟨(t.moveTo s.cursor).answer .done,
    ⟨hbuffer, rfl, hstores.readBytes, congrArg (· + 1) hpc, ?_⟩,
    (execAll_cons_of_next ht).trans (execAll_cons_of_next hreverse)⟩
  rw [State.answer_responses, State.moveTo_responses, hresponses, List.append_assoc]
  rfl

/-- A round trip, from what the pack does, and what the unpack does where the bytes packed stand at
its cursor. -/
theorem roundTrips_of_effects {pk up : Instr} {s : State} {bs : List Byte} {ws : List Op} {k l : Nat}
    (hpk : PackEffect pk s bs k)
    (hup : ∀ u, Rewound s u bs → UnpackEffect up u bs.length ws l) :
    RoundTrips pk up bs.length ws s := by
  obtain ⟨u, hu, hrun⟩ := pack_then_reverse hpk [up]
  obtain ⟨t, ht, ⟨hpc, hresponses, -⟩, ⟨hlen, hfpw⟩, -, hcursor, -⟩ := hup u hu
  obtain ⟨hlen', hfpw'⟩ := hu.buffer
  refine ⟨t, hrun.trans (execAll_cons_of_next ht), by rw [hpc, hu.pc], ?_,
    ⟨hlen.trans hlen', hfpw.trans hfpw'⟩, by rw [hcursor, hu.cursor]⟩
  rw [hresponses, hu.responses, List.append_assoc]
  rfl

end Sys2Proof.Machine
end

section
/-! The primitive codec (42_primitive.md R141 to R163): the bytes each pack stores, the words each unpack
answers. -/

namespace Sys2Proof.Machine

/-! ### Integers and floats (R141 to R162) -/

/-- The packet of a command with no `MOD` field (30_encoding.md R81, R87). -/
theorem encode_of_opcode {i : Instr} (opc : BitVec 8) (hopc : i.opcode = opc) (hmod : i.modBits = 0) :
    encode i = ⟨opc.setWidth 32 <<< 24, i.operands, i.payload⟩ :=
  encode_eq_of hopc hmod BitVec.or_zero

/-- The bytes of a number depend on its low bytes alone. -/
theorem leBytes_mod (n v : Nat) : leBytes n (v % 256 ^ n) = leBytes n v := by
  have hback := leBytes_fromLE (leBytes n v)
  rwa [leBytes_length, fromLE_leBytes] at hback

theorem beBytes_lowBytes (n : Nat) (v : Op) : beBytes n (lowBytes n v) = specBE n v.toNat := by
  rw [lowBytes, beBytes, leBytes_mod, ← beBytes_eq_specBE, beBytes]

theorem packLow_rule {i : Instr} {s : State} {p : Packet} {v : Op} (n : Nat) (hs : s.wf = true)
    (hp : encode i = p) (hexec : exec i s = packLow n v s) : PackRule i p (specBE n v.toNat) s :=
  packRule_of_pack hs hp (by rw [hexec, packLow, beBytes_lowBytes])

/-- Settles O32: the rules' bytes, written out, are the big-endian bytes of the operand word. -/
theorem primitivePacksStoreBigEndian : Obligations.PrimitivePacksStoreBigEndian := fun _ _ hs =>
  ⟨packLow_rule 1 hs (encode_of_opcode 0x20 rfl rfl) rfl,
    packLow_rule 2 hs (encode_of_opcode 0x21 rfl rfl) rfl,
    packLow_rule 4 hs (encode_of_opcode 0x22 rfl rfl) rfl,
    packLow_rule 8 hs (encode_of_opcode 0x23 rfl rfl) rfl,
    packLow_rule 1 hs (encode_of_opcode 0x24 rfl rfl) rfl,
    packLow_rule 2 hs (encode_of_opcode 0x25 rfl rfl) rfl,
    packLow_rule 4 hs (encode_of_opcode 0x26 rfl rfl) rfl,
    packLow_rule 8 hs (encode_of_opcode 0x27 rfl rfl) rfl,
    packLow_rule 4 hs (encode_of_opcode 0x28 rfl rfl) rfl,
    packLow_rule 8 hs (encode_of_opcode 0x29 rfl rfl) rfl⟩

theorem unpackZext_rule {i : Instr} {s : State} {p : Packet} (n : Nat) (hs : s.legal = true)
    (hp : encode i = p) (hexec : exec i s = unpackZext n s) :
    UnpackRule i p n (BitVec.ofNat 64 (beWord s.mem s.cursor.toNat n)) s :=
  unpackRule_of_unpack hs hp hexec (by rw [zextBE, fromBE_readBytes])

theorem unpackSext_rule {i : Instr} {s : State} {p : Packet} (n : Nat) (hs : s.legal = true)
    (hp : encode i = p) (hexec : exec i s = unpackSext n s) :
    UnpackRule i p n ((BitVec.ofNat (8 * n) (beWord s.mem s.cursor.toNat n)).signExtend 64) s :=
  unpackRule_of_unpack hs hp hexec (by rw [sextBE, fromBE_readBytes])

/-- Settles O33: the field is the bytes at the cursor as one number, zero- or sign-extended. -/
theorem primitiveUnpacksAnswerTheField : Obligations.PrimitiveUnpacksAnswerTheField := fun _ hs =>
  ⟨unpackZext_rule 1 hs rfl rfl, unpackZext_rule 2 hs rfl rfl, unpackZext_rule 4 hs rfl rfl,
    unpackZext_rule 8 hs rfl rfl, unpackSext_rule 1 hs rfl rfl, unpackSext_rule 2 hs rfl rfl,
    unpackSext_rule 4 hs rfl rfl, unpackSext_rule 8 hs rfl rfl, unpackZext_rule 4 hs rfl rfl,
    unpackZext_rule 8 hs rfl rfl⟩

/-! ### Blobs (R151, R163) -/

theorem exec_pkBlob_badLength {n : Op} (data : List Byte) (s : State) (hlong : maxBlob < n.toNat) :
    exec (.pkBlob n data) s = .refused (.packet .badLength) :=
  if_pos hlong

theorem exec_pkBlob_badPacket {n : Op} {data : List Byte} (s : State) (hlong : n.toNat ≤ maxBlob)
    (hlen : data.length ≠ n.toNat) : exec (.pkBlob n data) s = .refused (.packet .badPacket) :=
  (if_neg (Nat.not_lt.2 hlong)).trans (if_pos hlen)

/-- The bytes of a blob as stored: its length in two bytes, the most significant first, and its body. -/
theorem blobBytes_eq (n : Op) (data : List Byte) :
    beBytes 2 n.toNat ++ data = n.extractLsb' 8 8 :: n.extractLsb' 0 8 :: data := by
  rw [beBytes_eq_specBE]
  rfl

theorem blobBytes_length (n : Nat) (data : List Byte) :
    (beBytes 2 n ++ data).length = 2 + data.length := by
  rw [List.length_append, beBytes_length]

/-- PK_BLOB past its two checks is one pack of the length and the body together. -/
theorem pkBlob_rule {n : Op} {data : List Byte} {s : State} (hs : s.wf = true)
    (hlong : n.toNat ≤ maxBlob) (hlen : data.length = n.toNat) :
    PackRule (.pkBlob n data) ⟨0x2A000000, [n], data⟩ (beBytes 2 n.toNat ++ data) s :=
  packRule_of_pack hs (encode_of_opcode 0x2A rfl rfl)
    (exec_pkBlob_of_wf s (pkBlob_wf_iff.2 ⟨hlong, hlen⟩))

/-- Settles O34: the two checks in their order, and then the pack of the blob's bytes. -/
theorem blobPackStoresLengthAndBody : Obligations.BlobPackStoresLengthAndBody := by
  intro n data s hs
  refine ⟨encode_of_opcode 0x2A rfl rfl, exec_pkBlob_badLength data s, exec_pkBlob_badPacket s,
    fun hlong hlen => ?_⟩
  obtain ⟨-, hfits, hdropped⟩ := pkBlob_rule hs hlong hlen
  rw [blobBytes_length, hlen] at hfits hdropped
  rw [← blobBytes_eq]
  exact ⟨hfits, hdropped⟩

section
variable {s : State}

theorem exec_upBlob_of_no_length (hhead : s.fits 2 = false) :
    exec .upBlob s = .next (s.answer (.bytes [])) :=
  if_neg (Bool.eq_false_iff.1 hhead)

variable (hs : s.legal = true) (hhead : s.fits 2 = true)
include hs hhead

/-- With its length bytes inside the buffer, UP_BLOB goes by the length that they give. -/
theorem exec_upBlob_of_length :
    exec .upBlob s = if s.fits (2 + beWord s.mem s.cursor.toNat 2) then
        orFault (s.memRead (s.cursor.toNat + 2) (beWord s.mem s.cursor.toNat 2)) fun body =>
          (s.moveTo (s.cursor + BitVec.ofNat 32 (2 + beWord s.mem s.cursor.toNat 2))).complete
            (.bytes body)
      else s.complete (.bytes []) := by
  obtain ⟨-, hend⟩ := (State.fits_iff 2 s).1 hhead
  have hsize := backing_le_of_legal hs
  change execUpBlob s = _
  rw [execUpBlob, if_pos hhead, memRead_eq (by omega), orFault_some, fromBE_readBytes]

theorem exec_upBlob_of_no_body (hbody : s.fits (2 + beWord s.mem s.cursor.toNat 2) = false) :
    exec .upBlob s = .next (s.answer (.bytes [])) :=
  (exec_upBlob_of_length hs hhead).trans (if_neg (Bool.eq_false_iff.1 hbody))

theorem exec_upBlob_of_fits (hbody : s.fits (2 + beWord s.mem s.cursor.toNat 2) = true) :
    exec .upBlob s =
      .next ((s.moveTo (s.cursor + BitVec.ofNat 32 (2 + beWord s.mem s.cursor.toNat 2))).answer
        (.bytes (s.mem.readBytes (s.cursor.toNat + 2) (beWord s.mem s.cursor.toNat 2)))) := by
  obtain ⟨-, hend⟩ := (State.fits_iff _ s).1 hbody
  have hsize := backing_le_of_legal hs
  rw [exec_upBlob_of_length hs hhead, if_pos hbody, memRead_eq (by omega), orFault_some]
  rfl

end

/-- Settles O35: one case for each way the two checks of UP_BLOB end. -/
theorem blobUnpackAnswersTheBody : Obligations.BlobUnpackAnswersTheBody := by
  intro s hs l
  refine ⟨rfl, exec_upBlob_of_no_length, exec_upBlob_of_no_body hs, fun hhead hbody =>
    ⟨_, exec_upBlob_of_fits hs hhead hbody, ⟨rfl, rfl⟩, rfl, rfl, ?_, rfl, ?_, rfl⟩⟩
  · exact (cursor_add_toNat hs hbody).trans (Nat.add_assoc _ _ _).symm
  · rw [State.answer_responses, State.moveTo_responses, Response.bytes, Memory.readBytes_length,
      Memory.readBytes_eq_map]

end Sys2Proof.Machine
end

section
/-! The round trips of the primitive codec (42_primitive.md R164). -/

namespace Sys2Proof.Machine

/-- A pack of the low bytes of a word and an unpack of as many bytes. -/
theorem roundTrips_packLow {pk up : Instr} {s : State} {n : Nat} {v w : Op} {dec : List Byte → Op}
    (hs : s.wf = true) (hpk : exec pk s = packLow n v s) (hup : ∀ u, exec up u = u.unpack n dec)
    (hw : dec (beBytes n (lowBytes n v)) = w) (hfits : s.fits n = true) : RoundTrips pk up n [w] s := by
  have hlen : (beBytes n (lowBytes n v)).length = n := beBytes_length _ _
  have heffect : PackEffect pk s (beBytes n (lowBytes n v)) 0 :=
    packEffect_of_packWith hs (hlen.symm ▸ hfits) hpk rfl rfl
  have htrip := roundTrips_of_effects (up := up) (ws := [w]) (l := 0) heffect fun u hu => by
    refine unpackEffect_of_unpackWith (hu.legal (legal_of_wf hs)) (hu.fits (hlen.symm ▸ hfits))
      (hlen.symm ▸ hup u) ?_
    rw [hu.bytes, hw]
    rfl
  rwa [hlen] at htrip

/-- The low `n` bytes of a word as a number of `8n` bits. -/
theorem ofNat_lowBytes (n : Nat) (v : Op) :
    BitVec.ofNat (8 * n) (lowBytes n v) = v.setWidth (8 * n) := by
  apply BitVec.eq_of_toNat_eq
  rw [BitVec.toNat_ofNat, BitVec.toNat_setWidth, lowBytes, Nat.pow_mul, Nat.mod_mod]

theorem fromBE_lowBytes (n : Nat) (v : Op) : fromBE (beBytes n (lowBytes n v)) = lowBytes n v := by
  rw [fromBE_beBytes, lowBytes, Nat.mod_mod]

theorem zextBE_lowBytes (n : Nat) (v : Op) :
    zextBE (beBytes n (lowBytes n v)) = (v.setWidth (8 * n)).setWidth 64 := by
  apply BitVec.eq_of_toNat_eq
  rw [zextBE, fromBE_lowBytes, BitVec.toNat_ofNat, BitVec.toNat_setWidth, BitVec.toNat_setWidth,
    lowBytes, Nat.pow_mul]

theorem sextBE_lowBytes (n : Nat) (v : Op) :
    sextBE n (beBytes n (lowBytes n v)) = (v.setWidth (8 * n)).signExtend 64 := by
  rw [sextBE, fromBE_lowBytes, ofNat_lowBytes]

theorem roundTrips_zext {pk up : Instr} {s : State} {v : Op} (n : Nat) (hs : s.wf = true)
    (hpk : exec pk s = packLow n v s) (hup : ∀ u, exec up u = unpackZext n u)
    (hfits : s.fits n = true) : RoundTrips pk up n [(v.setWidth (8 * n)).setWidth 64] s :=
  roundTrips_packLow hs hpk hup (zextBE_lowBytes n v) hfits

theorem roundTrips_sext {pk up : Instr} {s : State} {v : Op} (n : Nat) (hs : s.wf = true)
    (hpk : exec pk s = packLow n v s) (hup : ∀ u, exec up u = unpackSext n u)
    (hfits : s.fits n = true) : RoundTrips pk up n [(v.setWidth (8 * n)).signExtend 64] s :=
  roundTrips_packLow hs hpk hup (sextBE_lowBytes n v) hfits

/-- Extending a whole word leaves it as it is. -/
theorem roundTrips_zext_word {pk up : Instr} {s : State} {v : Op} (hs : s.wf = true)
    (hpk : exec pk s = packLow 8 v s) (hup : ∀ u, exec up u = unpackZext 8 u)
    (hfits : s.fits 8 = true) : RoundTrips pk up 8 [v] s := by
  have htrip := roundTrips_zext 8 hs hpk hup hfits
  rwa [BitVec.setWidth_eq, BitVec.setWidth_eq] at htrip

theorem roundTrips_sext_word {pk up : Instr} {s : State} {v : Op} (hs : s.wf = true)
    (hpk : exec pk s = packLow 8 v s) (hup : ∀ u, exec up u = unpackSext 8 u)
    (hfits : s.fits 8 = true) : RoundTrips pk up 8 [v] s := by
  have htrip := roundTrips_sext 8 hs hpk hup hfits
  rwa [BitVec.signExtend_eq, BitVec.setWidth_eq] at htrip

/-- What UP_BLOB reads of a blob's bytes: the length again, and the body again. -/
theorem blob_at_cursor {m : Memory} {a : Nat} {data : List Byte} (hlong : data.length ≤ 65535)
    (hbytes : m.readBytes a (2 + data.length) = beBytes 2 data.length ++ data) :
    beWord m a 2 = data.length ∧ m.readBytes (a + 2) data.length = data := by
  rw [Memory.readBytes_add] at hbytes
  obtain ⟨hhead, hbody⟩ := List.append_inj hbytes (by rw [Memory.readBytes_length, beBytes_length])
  refine ⟨?_, hbody⟩
  rw [← fromBE_readBytes, hhead, fromBE_beBytes, Nat.mod_eq_of_lt (by omega)]

theorem fits_of_le {s : State} {m n : Nat} (hmn : m ≤ n) (hfits : s.fits n = true) :
    s.fits m = true := by
  obtain ⟨hstart, hend⟩ := (State.fits_iff n s).1 hfits
  exact (State.fits_iff m s).2 ⟨hstart, by omega⟩

theorem blob_roundTrip {s : State} {data : List Byte} (hs : s.wf = true)
    (hlong : data.length ≤ 65535) (hfits : s.fits (2 + data.length) = true) :
    ∃ t, execAll [.pkBlob (BitVec.ofNat 64 data.length) data,
        .reverse (BitVec.ofNat 64 (2 + data.length)), .upBlob] s = .next t ∧
      t.responses = s.responses ++ [.done, .done, ⟨0, [BitVec.ofNat 64 data.length], data⟩] ∧
      t.cursor.toNat = s.cursor.toNat + 2 + data.length ∧ SameBuffer s t := by
  have hcount : (BitVec.ofNat 64 data.length).toNat = data.length := by
    rw [BitVec.toNat_ofNat, Nat.mod_eq_of_lt (by omega)]
  obtain ⟨-, heffect, -⟩ := pkBlob_rule hs (hcount.symm ▸ hlong) hcount.symm
  rw [hcount, blobBytes_length] at heffect
  obtain ⟨u, hu, hrun⟩ := pack_then_reverse (heffect hfits) [.upBlob]
  have hbytes := hu.bytes
  rw [blobBytes_length] at hrun hbytes
  obtain ⟨hlength, hbody⟩ := blob_at_cursor hlong hbytes
  have hul := hu.legal (legal_of_wf hs)
  have hufits : u.fits (2 + data.length) = true := hu.fits hfits
  have hup := exec_upBlob_of_fits hul (fits_of_le (Nat.le_add_right 2 _) hufits) (by rwa [hlength])
  rw [hlength, hbody] at hup
  refine ⟨_, hrun.trans (execAll_cons_of_next hup), ?_, ?_, hu.buffer⟩
  · rw [State.answer_responses, State.moveTo_responses, hu.responses, List.append_assoc]
    rfl
  · rw [State.answer_cursor, State.moveTo_cursor, cursor_add_toNat hul hufits, hu.cursor,
      Nat.add_assoc]

/-- Settles O36: an unpack where the cursor was moved back to reads the bytes that the pack stored. -/
theorem primitiveRoundTrip : Obligations.PrimitiveRoundTrip := by
  intro v data s hs
  exact ⟨roundTrips_zext 1 hs rfl fun _ => rfl, roundTrips_zext 2 hs rfl fun _ => rfl,
    roundTrips_zext 4 hs rfl fun _ => rfl, roundTrips_zext_word hs rfl fun _ => rfl,
    roundTrips_sext 1 hs rfl fun _ => rfl, roundTrips_sext 2 hs rfl fun _ => rfl,
    roundTrips_sext 4 hs rfl fun _ => rfl, roundTrips_sext_word hs rfl fun _ => rfl,
    roundTrips_zext 4 hs rfl fun _ => rfl, roundTrips_zext_word hs rfl fun _ => rfl,
    blob_roundTrip hs⟩

end Sys2Proof.Machine
end

section
/-! Rounding keeps the order of the numbers and leaves a number of the format as it is (00_scope.md R16,
43_quantization.md R178). -/

namespace Sys2Proof.Machine

section
variable {fmt : Fmt} {x y : ℝ} {m m' : Nat} {e e' : Int} {neg neg' : Bool}

/-! ### The numbers of a format -/

/-- Every number at a larger exponent is larger, for it has all its digits. -/
theorem InFormat.lt_of_exp_lt (h : InFormat fmt m e) (h' : InFormat fmt m' e') (he : e < e') :
    (m : ℝ) * 2 ^ e < m' * 2 ^ e' := by
  obtain ⟨hlt, hmin, -, -⟩ := h
  obtain ⟨-, -, -, hnormal⟩ := h'
  have hdigits : 2 ^ (fmt.prec - 1) ≤ m' := hnormal.resolve_right (by omega)
  calc (m : ℝ) * 2 ^ e < 2 ^ fmt.prec * 2 ^ e :=
        mul_lt_mul_of_pos_right (by exact_mod_cast hlt) (two_zpow_pos _)
    _ = 2 ^ (fmt.prec - 1) * 2 ^ (e + 1) := by rw [two_pow_prec, two_zpow_add_one]; ring
    _ ≤ 2 ^ (fmt.prec - 1) * 2 ^ e' := mul_le_mul_of_nonneg_left (two_zpow_le he) (by positivity)
    _ ≤ m' * 2 ^ e' := mul_le_mul_of_nonneg_right (by exact_mod_cast hdigits) (two_zpow_pos _).le

/-- A number has one form in a format. -/
theorem InFormat.eq_of_value_eq (h : InFormat fmt m e) (h' : InFormat fmt m' e')
    (heq : (m : ℝ) * 2 ^ e = m' * 2 ^ e') : m = m' ∧ e = e' := by
  rcases lt_trichotomy e e' with he | rfl | he
  · exact absurd heq (h.lt_of_exp_lt h' he).ne
  · exact ⟨by exact_mod_cast mul_right_cancel₀ (two_zpow_pos e).ne' heq, rfl⟩
  · exact absurd heq (h'.lt_of_exp_lt h he).ne'

/-- Between two numbers with an even last digit lies another one. -/
theorem InFormat.exists_between_of_even (h : InFormat fmt m e) (h' : InFormat fmt m' e')
    (hm : m % 2 = 0) (hm' : m' % 2 = 0) (hlt : (m : ℝ) * 2 ^ e < m' * 2 ^ e') :
    ∃ c k, InFormat fmt c k ∧ (m : ℝ) * 2 ^ e < c * 2 ^ k ∧ (c : ℝ) * 2 ^ k < m' * 2 ^ e' := by
  have hp := two_zpow_pos e
  have he : e ≤ e' := le_of_not_gt fun hgt => (h'.lt_of_exp_lt h hgt).not_gt hlt
  have hpe : 2 ^ fmt.prec % 2 = 0 := by cases fmt <;> decide
  obtain ⟨hdigits, hmin, hmax, hnormal⟩ := h
  rw [whole_places he] at hlt ⊢
  have heven : m' * 2 ^ (e' - e).toNat % 2 = 0 := by rw [Nat.mul_mod, hm', zero_mul, Nat.zero_mod]
  have hplaces : m < m' * 2 ^ (e' - e).toNat := by exact_mod_cast lt_of_mul_lt_mul_right hlt hp.le
  refine ⟨m + 1, e, ⟨by omega, hmin, hmax, hnormal.imp_left (by omega)⟩, ?_, ?_⟩ <;>
    refine mul_lt_mul_of_pos_right (Nat.cast_lt.2 ?_) hp <;> omega

theorem InFormat.lt_overflowAt (h : InFormat fmt m e) : (m : ℝ) * 2 ^ e < overflowAt fmt := by
  obtain ⟨hlt, -, hmax, -⟩ := h
  have hdigits : (m : ℝ) + 1 ≤ 2 ^ fmt.prec := by exact_mod_cast hlt
  have hp := two_zpow_pos (fmt.eMax - 1)
  calc (m : ℝ) * 2 ^ e ≤ m * 2 ^ fmt.eMax :=
        mul_le_mul_of_nonneg_left (two_zpow_le hmax) (Nat.cast_nonneg m)
    _ = 2 * m * 2 ^ (fmt.eMax - 1) := by rw [two_zpow_pred fmt.eMax]; ring
    _ < (2 * 2 ^ fmt.prec - 1) * 2 ^ (fmt.eMax - 1) :=
        mul_lt_mul_of_pos_right (by linarith) hp
    _ = overflowAt fmt := (overflowAt_eq fmt).symm

/-- The smallest positive number of a format. -/
theorem inFormat_smallest (fmt : Fmt) : InFormat fmt 1 fmt.eMin :=
  ⟨Nat.one_lt_two_pow (by cases fmt <;> decide), le_rfl, (eMin_lt_eMax fmt).le, .inr rfl⟩

theorem InFormat.exp_of_zero (h : InFormat fmt 0 e) : e = fmt.eMin := by
  obtain ⟨-, -, -, hnormal⟩ := h
  have := Nat.two_pow_pos (fmt.prec - 1)
  omega

/-! ### The nearest number -/

/-- `m * 2^e` is the number of the format that `x` is rounded to, the overflow aside. -/
structure NearestIn (fmt : Fmt) (x : ℝ) (m : Nat) (e : Int) : Prop where
  inFormat : InFormat fmt m e
  dist_le : ∀ {m' e'}, InFormat fmt m' e' → |x - m * 2 ^ e| ≤ |x - m' * 2 ^ e'|
  even : ∀ {m' e'}, InFormat fmt m' e' → |x - m * 2 ^ e| = |x - m' * 2 ^ e'| →
    (m', e') ≠ (m, e) → m % 2 = 0

theorem roundsTo_iff {v : Fl} :
    RoundsTo fmt neg x v ↔ ((overflowAt fmt : ℝ) ≤ x ∧ v = .inf neg) ∨
      (x < (overflowAt fmt : ℝ) ∧ ∃ m e, v = .fin neg m e ∧ NearestIn fmt x m e) := by
  refine or_congr_right (and_congr_right fun _ => exists_congr fun m => exists_congr fun e =>
    and_congr_right fun _ => ?_)
  exact ⟨fun ⟨hf, h⟩ => ⟨hf, fun hf' => (h _ _ hf').1, fun hf' => (h _ _ hf').2⟩,
    fun h => ⟨h.inFormat, fun _ _ hf' => ⟨h.dist_le hf', h.even hf'⟩⟩⟩

/-- A number not further from `a` than from the smaller `b` is not below their middle. -/
theorem middle_le_of_dist_le {a b : ℝ} (hab : b < a) (h : |x - a| ≤ |x - b|) : a + b ≤ 2 * x := by
  nlinarith [sq_le_sq.2 h]

theorem le_middle_of_dist_le {a b : ℝ} (hab : b < a) (h : |x - b| ≤ |x - a|) : 2 * x ≤ a + b := by
  nlinarith [sq_le_sq.2 h]

/-- Rounding keeps order: were the smaller number rounded above the larger one, both would be the middle of two
numbers with even last digits, and a number between those is nearer. -/
theorem NearestIn.mono (h : NearestIn fmt x m e) (h' : NearestIn fmt y m' e') (hxy : x ≤ y) :
    (m : ℝ) * 2 ^ e ≤ m' * 2 ^ e' := by
  by_contra hgt
  rw [not_le] at hgt
  have hx := middle_le_of_dist_le hgt (h.dist_le h'.inFormat)
  have hy := le_middle_of_dist_le hgt (h'.dist_le h.inFormat)
  obtain rfl : x = y := by linarith
  have htie : |x - m * 2 ^ e| = |x - m' * 2 ^ e'| :=
    le_antisymm (h.dist_le h'.inFormat) (h'.dist_le h.inFormat)
  have hne : (m', e') ≠ (m, e) := fun heq => by
    obtain ⟨rfl, rfl⟩ := Prod.mk.inj heq
    exact lt_irrefl _ hgt
  obtain ⟨c, k, hc, hlow, hhigh⟩ := h'.inFormat.exists_between_of_even h.inFormat
    (h'.even h.inFormat htie.symm hne.symm) (h.even h'.inFormat htie hne) hgt
  have hlow' := le_middle_of_dist_le hlow (h'.dist_le hc)
  have hhigh' := middle_le_of_dist_le hhigh (h.dist_le hc)
  linarith

/-- A number of the format is nearest to itself. -/
theorem InFormat.nearestIn (h : InFormat fmt m e) : NearestIn fmt (m * 2 ^ e) m e where
  inFormat := h
  dist_le _ := by simp
  even h' heq hne := by
    rw [sub_self, abs_zero, eq_comm, abs_eq_zero, sub_eq_zero] at heq
    obtain ⟨rfl, rfl⟩ := h.eq_of_value_eq h' heq
    exact absurd rfl hne

/-! ### Rounding -/

/-- What is at most as large as a number that rounds to a finite value rounds to a finite value, at most as large. -/
theorem RoundsTo.mono {v : Fl} (h : RoundsTo fmt neg x v) (h' : RoundsTo fmt neg' y (.fin neg' m e))
    (hxy : x ≤ y) :
    ∃ m' e', v = .fin neg m' e' ∧ InFormat fmt m' e' ∧ (m' : ℝ) * 2 ^ e' ≤ m * 2 ^ e := by
  obtain ⟨-, hinf⟩ | ⟨hlt, _, _, heq, hnear⟩ := roundsTo_iff.1 h'
  · cases hinf
  · cases heq
    obtain ⟨hbig, -⟩ | ⟨-, m', e', hv, hnear'⟩ := roundsTo_iff.1 h
    · exact absurd (hxy.trans_lt hlt) hbig.not_gt
    · exact ⟨m', e', hv, hnear'.inFormat, hnear'.mono hnear hxy⟩

theorem InFormat.roundsTo (h : InFormat fmt m e) (neg : Bool) :
    RoundsTo fmt neg (m * 2 ^ e) (.fin neg m e) :=
  roundsTo_iff.2 (.inr ⟨h.lt_overflowAt, m, e, rfl, h.nearestIn⟩)

/-- A number of the format is not changed by rounding. -/
theorem RoundsTo.eq_fin {v : Fl} (h : RoundsTo fmt neg (m * 2 ^ e) v) (hf : InFormat fmt m e) :
    v = .fin neg m e := by
  obtain ⟨hbig, -⟩ | ⟨-, m', e', rfl, hnear⟩ := roundsTo_iff.1 h
  · exact absurd hf.lt_overflowAt hbig.not_gt
  · obtain ⟨rfl, rfl⟩ := hnear.inFormat.eq_of_value_eq hf
      (le_antisymm (hnear.mono hf.nearestIn le_rfl) (hf.nearestIn.mono hnear le_rfl))
    rfl

/-- A number that is not below the smallest one of the format does not round to zero. -/
theorem RoundsTo.pos_or_inf {v : Fl} (h : RoundsTo fmt neg x v) (hx : (2 : ℝ) ^ fmt.eMin ≤ x) :
    v = .inf neg ∨ ∃ m e, v = .fin neg m e ∧ InFormat fmt m e ∧ 0 < m := by
  obtain ⟨-, hv⟩ | ⟨-, m, e, hv, hnear⟩ := roundsTo_iff.1 h
  · exact .inl hv
  · refine .inr ⟨m, e, hv, hnear.inFormat, Nat.pos_of_ne_zero ?_⟩
    rintro rfl
    have hle := (inFormat_smallest fmt).nearestIn.mono hnear (by simpa using hx)
    have := two_zpow_pos fmt.eMin
    norm_num at hle
    linarith

end

end Sys2Proof.Machine
end

section
/-! Which values are finite, and how two values compare (00_scope.md R16, 43_quantization.md R174). -/

namespace Sys2Proof.Machine

/-! ### The comparison -/

theorem gt_fin_iff {n1 n2 : Bool} {m1 m2 : Nat} {e1 e2 : Int} :
    (Fl.fin n1 m1 e1).gt (.fin n2 m2 e2) = true ↔ signedValue n2 m2 e2 < signedValue n1 m1 e1 := by
  rw [signedValue_eq_scaled n1 m1 (min_le_left e1 e2), signedValue_eq_scaled n2 m2 (min_le_right e1 e2),
    mul_lt_mul_iff_left₀ (zpow_pos (by norm_num) _), Int.cast_lt, Fl.gt, decide_eq_true_iff]

theorem gt_nan (a : Fl) : a.gt .nan = false := by
  rcases a with _ | ⟨_ | _⟩ | _ <;> rfl

theorem minus_infinity_gt (a : Fl) : (Fl.inf true).gt a = false := by
  rcases a with _ | ⟨_ | _⟩ | _ <;> rfl

theorem gt_infinity (a : Fl) : a.gt (.inf false) = false := by
  rcases a with _ | ⟨_ | _⟩ | _ <;> rfl

/-- Settles O57: the order of the finite values is that of whole numbers of places, the rest are arms of `Fl.gt`. -/
theorem comparisonIsOfTheNumbers : Obligations.ComparisonIsOfTheNumbers := by
  intro n1 n2 m1 m2 e1 e2 a
  refine ⟨gt_fin_iff, rfl, gt_nan a, ?_, minus_infinity_gt a, ?_, gt_infinity a⟩
  · rcases a with _ | ⟨_ | _⟩ | _ <;> simp [Fl.gt]
  · rcases a with _ | ⟨_ | _⟩ | _ <;> simp [Fl.gt]

/-! ### Finite values -/

theorem trunc_eq_none_iff {v : Fl} : v.trunc = none ↔ v = .nan ∨ ∃ g, v = .inf g := by
  cases v <;> simp [Fl.trunc]

theorem trunc_ne_none_iff {v : Fl} : v.trunc ≠ none ↔ ∃ neg m e, v = .fin neg m e := by
  cases v <;> simp [Fl.trunc]

/-- The integer part of a finite value, over the rational numbers. -/
theorem trunc_fin (neg : Bool) (m : Nat) (e : Int) :
    (Fl.fin neg m e).trunc = some ((if neg then -1 else 1) * ⌊(m : ℚ) * 2 ^ e⌋) := by
  have hfrac : (m : ℚ) * 2 ^ e = ((m * 2 ^ e.toNat : Nat) : ℚ) / ((2 ^ (-e).toNat : Nat) : ℚ) := by
    have h := dyadic_eq_fraction m e
    rw [← Rat.cast_inj (α := ℝ)]
    push_cast at h ⊢
    exact h
  rw [hfrac, Rat.floor_natCast_div_natCast, Fl.trunc]
  cases neg <;> simp

/-- The parts of a finite pattern are a number of the format. -/
theorem inFormat_of_ofBits {fmt : Fmt} {b : Op} {neg : Bool} {m : Nat} {e : Int}
    (h : Fl.ofBits fmt b = .fin neg m e) : InFormat fmt m e := by
  have hfrac := fracField_lt fmt b
  have hexp : expField fmt b < 2 ^ fmt.expBits := Nat.mod_lt _ (by positivity)
  rw [ofBits_eq] at h
  split at h
  next => split at h <;> cases h
  next htop =>
    split at h <;> cases h
    next => exact ⟨by cases fmt <;> simp only [Fmt.prec] at * <;> omega, le_rfl, (eMin_lt_eMax fmt).le, .inr rfl⟩
    next hzero =>
      refine ⟨?_, by omega, ?_, .inl (Nat.le_add_right _ _)⟩ <;> cases fmt <;>
        simp only [Fmt.prec, Fmt.expBits, Fmt.eMin, Fmt.eMax] at * <;> omega

/-! ### Operands that make a result NaN or infinite (R263) -/

section
variable (fmt : Fmt) {a b : Fl}

theorem trunc_ite_eq_none {p : Prop} [Decidable p] (ha : a.trunc = none) (hb : b.trunc = none) :
    (if p then a else b).trunc = none := by
  split
  · exact ha
  · exact hb

theorem fadd_not_finite_left (h : a.trunc = none) (b : Fl) : (fadd fmt a b).trunc = none := by
  obtain rfl | ⟨g, rfl⟩ := trunc_eq_none_iff.1 h
  · rfl
  · rcases b with _ | g' | _
    · rfl
    · exact trunc_ite_eq_none rfl rfl
    · rfl

theorem fadd_not_finite_right (a : Fl) (h : b.trunc = none) : (fadd fmt a b).trunc = none := by
  rcases a with _ | g | _
  · rfl
  · exact fadd_not_finite_left fmt rfl b
  · obtain rfl | ⟨g, rfl⟩ := trunc_eq_none_iff.1 h <;> rfl

theorem fsub_not_finite_left (h : a.trunc = none) (b : Fl) : (fsub fmt a b).trunc = none :=
  fadd_not_finite_left fmt h b.neg

theorem fsub_not_finite_right (a : Fl) (h : b.trunc = none) : (fsub fmt a b).trunc = none := by
  refine fadd_not_finite_right fmt a ?_
  obtain rfl | ⟨g, rfl⟩ := trunc_eq_none_iff.1 h <;> rfl

theorem fdiv_not_finite_left (h : a.trunc = none) (b : Fl) : (fdiv fmt a b).trunc = none := by
  obtain rfl | ⟨g, rfl⟩ := trunc_eq_none_iff.1 h
  · rfl
  · cases b <;> rfl

theorem fmul_not_finite_left (h : a.trunc = none) (b : Fl) : (fmul fmt a b).trunc = none := by
  obtain rfl | ⟨g, rfl⟩ := trunc_eq_none_iff.1 h
  · rfl
  · rcases b with _ | _ | _
    · rfl
    · rfl
    · exact trunc_ite_eq_none rfl rfl

/-- A finite difference has finite operands. -/
theorem fin_of_fsub_finite (h : (fsub fmt a b).trunc ≠ none) :
    (∃ n m e, a = .fin n m e) ∧ ∃ n m e, b = .fin n m e :=
  ⟨trunc_ne_none_iff.1 fun ha => h (fsub_not_finite_left fmt ha b),
    trunc_ne_none_iff.1 fun hb => h (fsub_not_finite_right fmt a hb)⟩

end

end Sys2Proof.Machine
end

section
/-! The quantization codec's two functions in the machine's own arithmetic (43_quantization.md R173 to R179): the
scale constant, what QENC and QDEC do at the ends of a range and inside it, and where they are free. -/

namespace Sys2Proof.Machine

/-! ### Zero and one as operands -/

section
variable {fmt : Fmt} {m : Nat} {e : Int}

/-- The number 1 in a format. -/
def Fl.one (fmt : Fmt) : Fl := .fin false (2 ^ (fmt.prec - 1)) (-(fmt.prec - 1 : Nat))

/-- The powers of two that a scale constant can be rounded to (R173). -/
theorem inFormat_two_pow (fmt : Fmt) {k : Nat} (hk : k ≤ 56) :
    InFormat fmt (2 ^ (fmt.prec - 1)) (k - (fmt.prec - 1 : Nat)) := by
  refine ⟨?_, ?_, ?_, .inl le_rfl⟩ <;> cases fmt <;>
    simp only [Fmt.prec, Fmt.eMin, Fmt.eMax] <;> omega

theorem two_pow_value (fmt : Fmt) (k : Nat) :
    ((2 ^ (fmt.prec - 1) : Nat) : ℝ) * 2 ^ ((k : Int) - (fmt.prec - 1 : Nat)) = 2 ^ k := by
  rw [Nat.cast_pow, Nat.cast_ofNat, ← zpow_natCast, ← zpow_add₀ (by norm_num), add_sub_cancel, zpow_natCast]

theorem inFormat_one (fmt : Fmt) : InFormat fmt (2 ^ (fmt.prec - 1)) (-(fmt.prec - 1 : Nat)) := by
  simpa using inFormat_two_pow fmt (Nat.zero_le 56)

theorem one_value (fmt : Fmt) :
    ((2 ^ (fmt.prec - 1) : Nat) : ℝ) * 2 ^ (-(fmt.prec - 1 : Nat) : Int) = 1 := by
  have h := two_pow_value fmt 0
  rwa [Nat.cast_zero, zero_sub, pow_zero] at h

theorem abs_signedValue_real (neg : Bool) (m : Nat) (e : Int) :
    ((|signedValue neg m e| : ℚ) : ℝ) = m * 2 ^ e := by
  rw [abs_signedValue]
  push_cast
  rfl

theorem fmul_one (hf : InFormat fmt m e) (neg : Bool) :
    fmul fmt (Fl.one fmt) (.fin neg m e) = .fin neg m e := by
  have h := fmul_roundsTo fmt false neg (2 ^ (fmt.prec - 1)) m (-(fmt.prec - 1 : Nat)) e
  rw [abs_mul, Rat.cast_mul, abs_signedValue_real, abs_signedValue_real, one_value, one_mul,
    Bool.false_xor] at h
  exact h.eq_fin hf

theorem fmul_one_infinity (fmt : Fmt) (neg : Bool) : fmul fmt (Fl.one fmt) (.inf neg) = .inf neg := by
  rw [Fl.one, fmul, if_neg (Nat.two_pow_pos _).ne', Bool.false_xor]

theorem fdiv_self (fmt : Fmt) (neg : Bool) (hm : 0 < m) (e : Int) :
    fdiv fmt (.fin neg m e) (.fin neg m e) = Fl.one fmt := by
  have hne : signedValue neg m e ≠ 0 := mt signedValue_eq_zero.1 hm.ne'
  have h := fdiv_roundsTo fmt neg neg m m e e hne
  rw [div_self hne, abs_one, Rat.cast_one, ← one_value fmt, Bool.xor_self] at h
  exact h.eq_fin (inFormat_one fmt)

/-- The difference of a finite value and itself. -/
theorem fsub_self (fmt : Fmt) (neg : Bool) (m : Nat) (e : Int) :
    fsub fmt (.fin neg m e) (.fin neg m e) = .fin false 0 fmt.eMin := by
  have h := (fadd_roundsTo fmt neg (!neg) m m e e).2
  rw [signedValue_not, add_neg_cancel, Bool.and_not_self] at h
  exact h rfl

theorem round_zero (fmt : Fmt) (neg : Bool) (den : Nat) : Fl.round fmt neg 0 den = .fin neg 0 fmt.eMin :=
  if_pos rfl

theorem fmul_zero (fmt : Fmt) (n1 n2 : Bool) (m : Nat) (e1 e2 : Int) :
    fmul fmt (.fin n1 0 e1) (.fin n2 m e2) = .fin (n1 ^^ n2) 0 fmt.eMin := by
  rw [fmul, Fl.roundDyadic, zero_mul, zero_mul, round_zero]

theorem fdiv_zero (fmt : Fmt) (n1 n2 : Bool) (hm : 0 < m) (e1 e2 : Int) :
    fdiv fmt (.fin n1 0 e1) (.fin n2 m e2) = .fin (n1 ^^ n2) 0 fmt.eMin := by
  rw [fdiv, if_neg hm.ne', zero_mul, round_zero]

/-- A number of the format plus zero is that number, but for `-0.0`. -/
theorem fadd_zero (hf : InFormat fmt m e) (neg : Bool) (e0 : Int) :
    fadd fmt (.fin false 0 e0) (.fin neg m e) =
      if Fl.fin neg m e = .fin true 0 fmt.eMin then .fin false 0 fmt.eMin else .fin neg m e := by
  obtain ⟨hne, hzero⟩ := fadd_roundsTo fmt false neg 0 m e0 e
  have hadd : signedValue false 0 e0 + signedValue neg m e = signedValue neg m e := by
    rw [signedValue_eq_zero.2 rfl, zero_add]
  rw [hadd] at hne hzero
  rcases Nat.eq_zero_or_pos m with rfl | hm
  · obtain rfl := hf.exp_of_zero
    rw [hzero (signedValue_eq_zero.2 rfl), Bool.false_and]
    cases neg <;> simp
  · rw [if_neg fun heq => hm.ne' (Fl.fin.inj heq).2.1]
    have h := hne (mt signedValue_eq_zero.1 hm.ne')
    have hsign : decide (signedValue neg m e < 0) = neg := by
      have hpos : (0 : ℚ) < m * 2 ^ e := by positivity
      cases neg <;> simp [signedValue, hpos, hpos.le]
    rw [abs_signedValue_real, hsign] at h
    exact h.eq_fin hf

end

/-! ### The width of a range (R174, R175) -/

section
variable {fmt : Fmt} {n1 n2 : Bool} {m1 m2 : Nat} {e1 e2 : Int}

theorem fsub_roundsTo_of_lt (hlt : signedValue n2 m2 e2 < signedValue n1 m1 e1) :
    RoundsTo fmt false ((signedValue n1 m1 e1 - signedValue n2 m2 e2 : ℚ) : ℝ)
      (fsub fmt (.fin n1 m1 e1) (.fin n2 m2 e2)) := by
  have h := (fadd_roundsTo fmt n1 (!n2) m1 m2 e1 e2).1
  rw [signedValue_not, ← sub_eq_add_neg, abs_of_pos (sub_pos.2 hlt),
    decide_eq_false (sub_pos.2 hlt).not_gt] at h
  exact h (sub_pos.2 hlt).ne'

/-- A difference rounded once, whatever its sign: an exact zero is rounded to zero. -/
theorem fsub_roundsTo (fmt : Fmt) (n1 n2 : Bool) (m1 m2 : Nat) (e1 e2 : Int) :
    ∃ neg, RoundsTo fmt neg ((|signedValue n1 m1 e1 - signedValue n2 m2 e2| : ℚ) : ℝ)
      (fsub fmt (.fin n1 m1 e1) (.fin n2 m2 e2)) := by
  obtain ⟨hne, hzero⟩ := fadd_roundsTo fmt n1 (!n2) m1 m2 e1 e2
  rw [signedValue_not, ← sub_eq_add_neg] at hne hzero
  by_cases hdiff : signedValue n1 m1 e1 - signedValue n2 m2 e2 = 0
  · refine ⟨n1 && !n2, ?_⟩
    rw [show fsub fmt (.fin n1 m1 e1) (.fin n2 m2 e2) = _ from hzero hdiff, hdiff, abs_zero, Rat.cast_zero]
    exact roundsTo_zero fmt _
  · exact ⟨_, hne hdiff⟩

/-- Different numbers of a format are at least its smallest number apart. -/
theorem smallest_le_sub (h1 : InFormat fmt m1 e1) (h2 : InFormat fmt m2 e2)
    (hlt : signedValue n2 m2 e2 < signedValue n1 m1 e1) :
    (2 : ℝ) ^ fmt.eMin ≤ ((signedValue n1 m1 e1 - signedValue n2 m2 e2 : ℚ) : ℝ) := by
  obtain ⟨-, hmin1, -⟩ := h1
  obtain ⟨-, hmin2, -⟩ := h2
  have hp : (0 : ℚ) < 2 ^ fmt.eMin := zpow_pos (by norm_num) _
  rw [signedValue_eq_scaled n1 m1 hmin1, signedValue_eq_scaled n2 m2 hmin2] at hlt ⊢
  have hplaces : scaled n2 m2 e2 fmt.eMin + 1 ≤ scaled n1 m1 e1 fmt.eMin := by
    exact_mod_cast lt_of_mul_lt_mul_right hlt hp.le
  have hplaces' : (scaled n2 m2 e2 fmt.eMin : ℝ) + 1 ≤ scaled n1 m1 e1 fmt.eMin := by
    exact_mod_cast hplaces
  have hp' := two_zpow_pos fmt.eMin
  push_cast
  nlinarith

end

/-- A larger value of a format minus a smaller one. -/
theorem fsub_cases_of_gt {fmt : Fmt} {a b : Fl} (ha : ∀ n m e, a = .fin n m e → InFormat fmt m e)
    (hb : ∀ n m e, b = .fin n m e → InFormat fmt m e) (hgt : a.gt b = true) :
    fsub fmt a b = .inf false ∨ ∃ m e, fsub fmt a b = .fin false m e ∧ InFormat fmt m e ∧ 0 < m := by
  rcases a with _ | ⟨_ | _⟩ | ⟨n1, m1, e1⟩
  · cases hgt
  · rcases b with _ | ⟨_ | _⟩ | _
    · cases hgt
    · cases hgt
    · exact .inl rfl
    · exact .inl rfl
  · rw [minus_infinity_gt] at hgt
    cases hgt
  · rcases b with _ | ⟨_ | _⟩ | ⟨n2, m2, e2⟩
    · cases hgt
    · cases hgt
    · exact .inl rfl
    · have hlt := gt_fin_iff.1 hgt
      exact (fsub_roundsTo_of_lt hlt).pos_or_inf
        (smallest_le_sub (ha _ _ _ rfl) (hb _ _ _ rfl) hlt)

/-- The width of a valid range is plus infinity or a positive number of the format. -/
theorem width_cases {fmt : Fmt} {lo hi : Op} (hvalid : (Fl.ofBits fmt hi).gt (Fl.ofBits fmt lo) = true) :
    fsub fmt (Fl.ofBits fmt hi) (Fl.ofBits fmt lo) = .inf false ∨
      ∃ m e, fsub fmt (Fl.ofBits fmt hi) (Fl.ofBits fmt lo) = .fin false m e ∧ InFormat fmt m e ∧
        0 < m :=
  fsub_cases_of_gt (fun _ _ _ => inFormat_of_ofBits) (fun _ _ _ => inFormat_of_ofBits) hvalid

/-! ### The scale constant (R173) -/

/-- Settles O40: the constants are closed terms. -/
theorem scaleConstants : Obligations.ScaleConstants := ⟨by decide, by decide, by decide⟩

/-- A scale constant is a number of the format, at least 1. -/
theorem constant_scale (fmt : Fmt) {n : Nat} (hn : 0 < n) (hn' : n ≤ 56) :
    ∃ m e, constant fmt (2 ^ n - 1) 1 = .fin false m e ∧ InFormat fmt m e ∧ 0 < m := by
  have hround := round_roundsTo fmt false (2 ^ n - 1) Nat.one_pos
  have hone : 1 < 2 ^ n := Nat.one_lt_two_pow hn.ne'
  have hreal : (((2 ^ n - 1 : Nat) : ℝ) / (1 : Nat)) = 2 ^ n - 1 := by
    rw [Nat.cast_one, div_one, Nat.cast_sub hone.le, Nat.cast_pow, Nat.cast_ofNat, Nat.cast_one]
  rw [hreal] at hround
  have hone' : (2 : ℝ) ≤ 2 ^ n := by exact_mod_cast hone
  have hmin : (2 : ℝ) ^ fmt.eMin ≤ 2 ^ (0 : Int) := two_zpow_le (by cases fmt <;> decide)
  rw [zpow_zero] at hmin
  refine (hround.pos_or_inf (by linarith)).resolve_left fun hinf => ?_
  have htop := (inFormat_two_pow fmt hn').roundsTo false
  rw [two_pow_value] at htop
  obtain ⟨m, e, hfin, -⟩ := hround.mono htop (by linarith)
  exact Fl.noConfusion (hinf.symm.trans hfin)

/-! ### QENC in a valid range (R174, R178, R179) -/

section
variable {fmt : Fmt} {n : Nat} {v lo hi : Op}

/-- The code of a field in a valid range, from its scaled value. -/
theorem codeOf_valid (hvalid : (Fl.ofBits fmt hi).gt (Fl.ofBits fmt lo) = true) :
    codeOf fmt n ⟨v, lo, hi⟩ =
      (fmul fmt (fdiv fmt (fsub fmt (Fl.ofBits fmt v) (Fl.ofBits fmt lo))
          (fsub fmt (Fl.ofBits fmt hi) (Fl.ofBits fmt lo)))
        (constant fmt (2 ^ n - 1) 1)).trunc.map fun z => (z % 2 ^ n).toNat :=
  (codeOf_eq fmt n _).trans (if_pos hvalid)

/-- Settles O41: the scaled value of the minimum is a zero, over a width that is infinite or not. -/
theorem minimumPacksAsCodeZero : Obligations.MinimumPacksAsCodeZero := by
  intro fmt n lo hi hn hn' hvalid hlo
  obtain ⟨neg, m, e, hlo⟩ := trunc_ne_none_iff.1 hlo
  obtain ⟨mk, ek, hk, -⟩ := constant_scale fmt hn hn'
  have ht : fdiv fmt (.fin false 0 fmt.eMin) (fsub fmt (Fl.ofBits fmt hi) (Fl.ofBits fmt lo)) =
      .fin false 0 fmt.eMin := by
    rcases width_cases hvalid with hr | ⟨mr, er, hr, -, hpos⟩
    · rw [hr]; rfl
    · rw [hr, fdiv_zero fmt _ _ hpos, Bool.xor_self]
  have hd : fsub fmt (Fl.ofBits fmt lo) (Fl.ofBits fmt lo) = .fin false 0 fmt.eMin := by
    rw [hlo, fsub_self]
  rw [codeOf_valid hvalid, hd, ht, hk, fmul_zero, trunc_fin]
  simp

/-- The scaled value of the maximum is the scale constant. -/
theorem codeOf_maximum (hn : 0 < n) (hn' : n ≤ 56)
    (hvalid : (Fl.ofBits fmt hi).gt (Fl.ofBits fmt lo) = true)
    (hwidth : (fsub fmt (Fl.ofBits fmt hi) (Fl.ofBits fmt lo)).trunc ≠ none) :
    codeOf fmt n ⟨hi, lo, hi⟩ =
      (constant fmt (2 ^ n - 1) 1).trunc.map fun z => (z % 2 ^ n).toNat := by
  obtain ⟨mk, ek, hk, hkf, -⟩ := constant_scale fmt hn hn'
  rcases width_cases hvalid with hr | ⟨m, e, hr, -, hpos⟩
  · exact absurd (by rw [hr]; rfl) hwidth
  · rw [codeOf_valid hvalid, hr, fdiv_self fmt false hpos, hk, fmul_one hkf]

/-- Where the scale constant is `2^N - 1` (R173, 44_bitpack.md R212). -/
theorem scale_code_S : ∀ n ∈ [1, 2, 4, 5, 6, 7, 8, 10, 11, 16, 24], (0 < n ∧ n ≤ 56) ∧
    ((constant .S (2 ^ n - 1) 1).trunc.map fun z => (z % 2 ^ n).toNat) = some (2 ^ n - 1) := by
  decide

theorem scale_code_D : ∀ n ∈ [8, 16, 24, 32, 40, 48], (0 < n ∧ n ≤ 56) ∧
    ((constant .D (2 ^ n - 1) 1).trunc.map fun z => (z % 2 ^ n).toNat) = some (2 ^ n - 1) := by
  decide

/-- Settles O42: the top codes are the scale constants modulo `2^N`. -/
theorem maximumPacksAsTopCodeOrWraps : Obligations.MaximumPacksAsTopCodeOrWraps := by
  intro fmt lo hi hvalid hwidth
  refine ⟨?_, ?_, ?_, ?_⟩ <;> rintro rfl
  · intro n hmem
    obtain ⟨⟨hn, hn'⟩, hcode⟩ := scale_code_S n hmem
    exact (codeOf_maximum hn hn' hvalid hwidth).trans hcode
  · intro n hmem
    obtain ⟨⟨hn, hn'⟩, hcode⟩ := scale_code_D n hmem
    exact (codeOf_maximum hn hn' hvalid hwidth).trans hcode
  · exact (codeOf_maximum (by decide) (by decide) hvalid hwidth).trans (by decide)
  · exact (codeOf_maximum (by decide) (by decide) hvalid hwidth).trans (by decide)

/-- A finite value divided by one at least as large is at most 1 (R178). -/
theorem fdiv_le_one {m1 m2 : Nat} {e1 e2 : Int} {n1 n2 : Bool} (hpos : 0 < m2)
    (hle : (m1 : ℝ) * 2 ^ e1 ≤ m2 * 2 ^ e2) :
    ∃ neg m e, fdiv fmt (.fin n1 m1 e1) (.fin n2 m2 e2) = .fin neg m e ∧ (m : ℝ) * 2 ^ e ≤ 1 := by
  have h := fdiv_roundsTo fmt n1 n2 m1 m2 e1 e2 (mt signedValue_eq_zero.1 hpos.ne')
  have hone := (inFormat_one fmt).roundsTo false
  rw [abs_div, Rat.cast_div, abs_signedValue_real, abs_signedValue_real] at h
  rw [one_value] at hone
  have hp := two_zpow_pos e2
  obtain ⟨m, e, hv, -, hle'⟩ := h.mono hone ((div_le_one (by positivity)).2 hle)
  exact ⟨_, m, e, hv, hle'.trans_eq (one_value fmt)⟩

/-- A value of at most 1 times a number of the format is finite. -/
theorem fmul_finite_of_le_one {m1 m2 : Nat} {e1 e2 : Int} {n1 n2 : Bool}
    (hle : (m1 : ℝ) * 2 ^ e1 ≤ 1) (hf : InFormat fmt m2 e2) :
    ∃ neg m e, fmul fmt (.fin n1 m1 e1) (.fin n2 m2 e2) = .fin neg m e := by
  have h := fmul_roundsTo fmt n1 n2 m1 m2 e1 e2
  rw [abs_mul, Rat.cast_mul, abs_signedValue_real, abs_signedValue_real] at h
  obtain ⟨m, e, hv, -⟩ := h.mono (hf.roundsTo false)
    (mul_le_of_le_one_left (by have := two_zpow_pos e2; positivity) hle)
  exact ⟨_, m, e, hv⟩

end

/-- A value between two finite ones is finite. -/
theorem fin_of_between {n1 n2 : Bool} {m1 m2 : Nat} {e1 e2 : Int} {v : Fl} (hv : v ≠ .nan)
    (hlow : (Fl.fin n1 m1 e1).gt v = false) (hhigh : v.gt (.fin n2 m2 e2) = false) :
    ∃ neg m e, v = .fin neg m e := by
  rcases v with _ | ⟨_ | _⟩ | ⟨neg, m, e⟩
  · exact absurd rfl hv
  · cases hhigh
  · cases hlow
  · exact ⟨neg, m, e, rfl⟩

/-- Settles O43: rounding keeps order, so `d <= r`, then `d / r <= 1`, and the scaled value is at most `K` (R178). -/
theorem inRangeValuesTakeNoDraw : Obligations.InRangeValuesTakeNoDraw := by
  intro fmt n v lo hi hn hn' hvalid hwidth hv hlow hhigh
  obtain ⟨mk, ek, hk, hkf, -⟩ := constant_scale fmt hn hn'
  obtain hr | ⟨mr, er, hr, -, hpos⟩ := width_cases hvalid
  · exact absurd (by rw [hr]; rfl) hwidth
  obtain ⟨⟨nh, mh, eh, hhi⟩, nl, ml, el, hlo⟩ := fin_of_fsub_finite fmt hwidth
  rw [hlo] at hlow
  rw [hhi] at hhigh
  obtain ⟨nv, mv, ev, hval⟩ := fin_of_between hv hlow hhigh
  rw [hval] at hlow hhigh
  rw [hhi, hlo] at hvalid hr
  have hlow' := not_lt.1 (mt gt_fin_iff.2 (Bool.eq_false_iff.1 hlow))
  have hhigh' := not_lt.1 (mt gt_fin_iff.2 (Bool.eq_false_iff.1 hhigh))
  have hround := fsub_roundsTo_of_lt (fmt := fmt) (gt_fin_iff.1 hvalid)
  obtain ⟨nd, hround'⟩ := fsub_roundsTo fmt nv nl mv ml ev el
  rw [hr] at hround
  rw [abs_of_nonneg (sub_nonneg.2 hlow')] at hround'
  obtain ⟨md, ed, hd, -, hle⟩ := hround'.mono hround (Rat.cast_le.2 (sub_le_sub_right hhigh' _))
  obtain ⟨nt, mt, et, ht, hle'⟩ := fdiv_le_one (fmt := fmt) (n1 := nd) (n2 := false) hpos hle
  obtain ⟨ns, ms, es, hs⟩ := fmul_finite_of_le_one (n1 := nt) (n2 := false) hle' hkf
  obtain ⟨q, hq⟩ : ∃ q, codeOf fmt n ⟨v, lo, hi⟩ = some q :=
    ⟨_, by rw [codeOf_valid (by rwa [hhi, hlo]), hval, hhi, hlo, hd, hr, ht, hk, hs, trunc_fin]; rfl⟩
  exact ⟨q, hq, qenc_lt hq⟩

/-! ### Where a code is free, and the code elsewhere (R174, R263) -/

theorem codeOf_invalid {fmt : Fmt} {n : Nat} {f : QArg}
    (h : (Fl.ofBits fmt f.max).gt (Fl.ofBits fmt f.min) = false) : codeOf fmt n f = none :=
  (codeOf_eq fmt n f).trans (if_neg (Bool.eq_false_iff.1 h))

/-- A scaled value that is NaN or infinite makes the code free. -/
theorem codeOf_not_finite {fmt : Fmt} {n : Nat} {f : QArg}
    (h : (fmul fmt (fdiv fmt (fsub fmt (Fl.ofBits fmt f.value) (Fl.ofBits fmt f.min))
        (fsub fmt (Fl.ofBits fmt f.max) (Fl.ofBits fmt f.min)))
      (constant fmt (2 ^ n - 1) 1)).trunc = none) : codeOf fmt n f = none := by
  rw [codeOf_eq, h, Option.map_none, ite_self]

/-- Settles O58: what is not finite stays so through the operations of QENC. -/
theorem codesWrapOrAreFree : Obligations.CodesWrapOrAreFree := by
  refine ⟨?_, by decide, by decide⟩
  intro fmt n f v lo hi s
  refine ⟨codeOf_invalid, fun h => codeOf_invalid ?_, fun h => codeOf_not_finite ?_,
    fun h => codeOf_not_finite (trunc_eq_none_iff.2 h), fun hvalid neg m e hs => ?_⟩
  · rcases h with h | h
    · exact (congrArg hi.gt h).trans (gt_nan hi)
    · exact congrArg (Fl.gt · lo) h
  · exact fmul_not_finite_left fmt (fdiv_not_finite_left fmt
      (fsub_not_finite_left fmt (trunc_eq_none_iff.2 h) _) _) _
  · have hcode : codeOf fmt n f = s.trunc.map fun z => (z % 2 ^ n).toNat := codeOf_valid hvalid
    rw [hcode, hs, trunc_fin]
    rfl

/-! ### QDEC (R175, R184) -/

section
variable {fmt : Fmt} {n : Nat} {r : QRange}

theorem valueOf_valid (q : Nat) (hvalid : (Fl.ofBits fmt r.max).gt (Fl.ofBits fmt r.min) = true) :
    valueOf fmt n q r = some (fadd fmt (fmul fmt (fdiv fmt (cvt fmt q) (constant fmt (2 ^ n - 1) 1))
      (fsub fmt (Fl.ofBits fmt r.max) (Fl.ofBits fmt r.min))) (Fl.ofBits fmt r.min)) :=
  (valueOf_eq fmt n q r).trans (if_pos hvalid)

theorem valueOf_eq_none_iff (q : Nat) :
    valueOf fmt n q r = none ↔ (Fl.ofBits fmt r.max).gt (Fl.ofBits fmt r.min) = false := by
  rw [valueOf_eq]
  split <;> simp [*]

/-- Code 0 stands for a zero before the range is applied. -/
theorem fdiv_code_zero (fmt : Fmt) (hn : 0 < n) (hn' : n ≤ 56) :
    fdiv fmt (cvt fmt 0) (constant fmt (2 ^ n - 1) 1) = .fin false 0 fmt.eMin := by
  obtain ⟨m, e, hk, -, hpos⟩ := constant_scale fmt hn hn'
  rw [hk, cvt, round_zero, fdiv_zero fmt _ _ hpos, Bool.xor_self]

/-- The all-ones code stands for 1, for the code and the scale constant are one rounding of one number. -/
theorem fdiv_code_top (fmt : Fmt) (hn : 0 < n) (hn' : n ≤ 56) :
    fdiv fmt (cvt fmt (2 ^ n - 1)) (constant fmt (2 ^ n - 1) 1) = Fl.one fmt := by
  obtain ⟨m, e, hk, -, hpos⟩ := constant_scale fmt hn hn'
  rw [show cvt fmt (2 ^ n - 1) = _ from hk, hk, fdiv_self fmt false hpos]

variable (hn : 0 < n) (hn' : n ≤ 56)
  (hvalid : (Fl.ofBits fmt r.max).gt (Fl.ofBits fmt r.min) = true)
include hn hn' hvalid

/-- Zero times a finite width is zero, and zero plus the minimum is the minimum, but for `-0.0`. -/
theorem valueOf_zero_of_finite
    (hd : (fsub fmt (Fl.ofBits fmt r.max) (Fl.ofBits fmt r.min)).trunc ≠ none) :
    valueOf fmt n 0 r = some (if Fl.ofBits fmt r.min = .fin true 0 fmt.eMin then
      .fin false 0 fmt.eMin else Fl.ofBits fmt r.min) := by
  rw [valueOf_valid 0 hvalid, fdiv_code_zero fmt hn hn']
  obtain hr | ⟨m, e, hr, -, -⟩ := width_cases hvalid
  · exact absurd (by rw [hr]; rfl) hd
  · obtain ⟨-, nl, ml, el, hlo⟩ := fin_of_fsub_finite fmt hd
    rw [hr, fmul_zero, Bool.xor_self, hlo, fadd_zero (inFormat_of_ofBits hlo)]

/-- Zero times an infinite width is NaN. -/
theorem valueOf_zero_of_infinite
    (hd : (fsub fmt (Fl.ofBits fmt r.max) (Fl.ofBits fmt r.min)).trunc = none) :
    valueOf fmt n 0 r = some .nan := by
  rw [valueOf_valid 0 hvalid, fdiv_code_zero fmt hn hn']
  obtain hr | ⟨m, e, hr, -, -⟩ := width_cases hvalid
  · rw [hr]
    rfl
  · rw [hr] at hd
    cases hd

/-- One times the width is the width. -/
theorem valueOf_top :
    valueOf fmt n (2 ^ n - 1) r =
      some (fadd fmt (fsub fmt (Fl.ofBits fmt r.max) (Fl.ofBits fmt r.min)) (Fl.ofBits fmt r.min)) := by
  rw [valueOf_valid _ hvalid, fdiv_code_top fmt hn hn']
  obtain hr | ⟨m, e, hr, hf, -⟩ := width_cases hvalid
  · rw [hr, fmul_one_infinity]
  · rw [hr, fmul_one hf]

end

/-- Settles O59: code 0 stands for zero and the all-ones code for 1, times a width that is finite or infinite. -/
theorem decodedValueOfACode : Obligations.DecodedValueOfACode := fun _ _ _ hn hn' =>
  ⟨valueOf_eq_none_iff, fun hvalid => ⟨fun q => valueOf_valid q hvalid,
    valueOf_zero_of_finite hn hn' hvalid, valueOf_zero_of_infinite hn hn' hvalid,
    valueOf_top hn hn' hvalid⟩⟩

end Sys2Proof.Machine
end

section
/-! The quantization commands (43_quantization.md R176, R177, R180 to R202): the packs, the unpacks and their round
trips. -/

namespace Sys2Proof.Machine

/-! ### Little-endian codes (00_scope.md R12) -/

theorem fromLE_concat (bs : List Byte) (b : Byte) :
    fromLE (bs ++ [b]) = fromLE bs + 256 ^ bs.length * b.toNat := by
  induction bs with
  | nil => simp [fromLE]
  | cons c bs ih =>
    rw [List.cons_append, fromLE, ih, fromLE, List.length_cons, pow_succ]
    ring

/-- The code read at an address, said with the model's readers. -/
theorem fromLE_readBytes (m : Memory) (a n : Nat) : fromLE (m.readBytes a n) = leWord m a n := by
  induction n with
  | zero => rfl
  | succ n ih =>
    rw [Memory.readBytes_succ, fromLE_concat, ih, Memory.readBytes_length, leWord]

/-- A code of `8n` bits is read back from its `n` bytes. -/
theorem fromLE_leBytes_code {n q : Nat} (hq : q < 2 ^ (8 * n)) : fromLE (leBytes n q) = q := by
  rw [fromLE_leBytes, Nat.mod_eq_of_lt (by rwa [Nat.pow_mul] at hq)]

/-! ### Settled codes and answers (R174, R175) -/

/-- A settled code is the code of the rules, or a draw. -/
theorem fieldCode_settleCode (fmt : Fmt) (n : Nat) (a : QArg) (k : Nat) :
    ∃ j, FieldCode n (codeOf fmt n a) (settleCode n (codeOf fmt n a) k).1 j ∧
      (settleCode n (codeOf fmt n a) k).2 = k + j := by
  cases h : codeOf fmt n a with
  | none => exact ⟨1, ⟨drawCode_lt n k, rfl⟩, rfl⟩
  | some q => exact ⟨0, ⟨rfl, qenc_lt h, rfl⟩, rfl⟩

theorem FieldCode.lt {n q k : Nat} {c : Option Nat} (h : FieldCode n c q k) : q < 2 ^ n := by
  cases c with
  | none => exact h.1
  | some c =>
    obtain ⟨-, hlt, -⟩ := h
    exact hlt

/-- A settled answer is the pattern of the rules' value, a NaN pattern, or a draw. -/
theorem fieldAnswer_settleValue (fmt : Fmt) (v : Option Fl) (k : Nat) :
    ∃ j, FieldAnswer fmt v (settleValue Config.qnum fmt v k).1 j ∧
      (settleValue Config.qnum fmt v k).2 = k + j := by
  rcases v with _ | _ | neg | ⟨neg, m, e⟩
  case none =>
    refine ⟨1, ⟨?_, rfl⟩, rfl⟩
    rw [settleValue, BitVec.toNat_ofNat]
    exact (Nat.mod_le _ _).trans_lt (drawCode_lt fmt.width k)
  case some.nan =>
    obtain ⟨hnan, hwidth⟩ := nanBits_is_nan fmt (Config.draw k)
    exact ⟨1, ⟨hnan, hwidth, rfl⟩, rfl⟩
  case some.inf => exact ⟨0, ⟨rfl, rfl⟩, rfl⟩
  case some.fin => exact ⟨0, ⟨rfl, rfl⟩, rfl⟩

/-! ### One access (R176, R177) -/

section
variable {i : Instr} {fmt : Fmt} {n : Nat} {s : State}

theorem quantPack_eq (fmt : Fmt) (n : Nat) (a : QArg) (s : State) :
    quantPack Config.qnum fmt (8 * n) a s = s.packWith n fun k =>
      (leBytes n (settleCode (8 * n) (codeOf fmt (8 * n) a) k).1,
        (settleCode (8 * n) (codeOf fmt (8 * n) a) k).2) := by
  rw [quantPack, Nat.mul_div_cancel_left n (by decide)]

theorem quantUnpack_eq (fmt : Fmt) (n : Nat) (r : QRange) (s : State) :
    quantUnpack Config.qnum fmt (8 * n) r s = s.unpackWith n (fun bs k =>
      ([(settleValue Config.qnum fmt (valueOf fmt (8 * n) (fromLE bs) r) k).1],
        (settleValue Config.qnum fmt (valueOf fmt (8 * n) (fromLE bs) r) k).2)) [0] := by
  rw [quantUnpack, Nat.mul_div_cancel_left n (by decide)]

/-- A quantization pack that fits stores the code. -/
theorem quantPack_effect {a : QArg} (hs : s.wf = true)
    (hexec : exec i s = quantPack Config.qnum fmt (8 * n) a s) (hfits : s.fits n = true) :
    ∃ q k, FieldCode (8 * n) (codeOf fmt (8 * n) a) q k ∧ PackEffect i s (leBytes n q) k := by
  obtain ⟨k, hcode, hdraws⟩ := fieldCode_settleCode fmt (8 * n) a s.draws
  exact ⟨_, k, hcode, packEffect_of_packWith hs hfits (hexec.trans (quantPack_eq fmt n a s))
    (Prod.ext rfl hdraws) (leBytes_length _ _)⟩

/-- A quantization unpack that fits answers the value of the code at the cursor. -/
theorem quantUnpack_effect {r : QRange} (hs : s.legal = true)
    (hexec : exec i s = quantUnpack Config.qnum fmt (8 * n) r s) (hfits : s.fits n = true) :
    ∃ w k, FieldAnswer fmt (valueOf fmt (8 * n) (fromLE (s.mem.readBytes s.cursor.toNat n)) r) w k ∧
      UnpackEffect i s n [w] k := by
  obtain ⟨k, hanswer, hdraws⟩ := fieldAnswer_settleValue fmt
    (valueOf fmt (8 * n) (fromLE (s.mem.readBytes s.cursor.toNat n)) r) s.draws
  exact ⟨_, k, hanswer, unpackEffect_of_unpackWith hs hfits
    (hexec.trans (quantUnpack_eq fmt n r s)) (Prod.ext rfl hdraws)⟩

theorem quantPack_rule {a : QArg} {cw : BitVec 32} (hs : s.wf = true)
    (hp : encode i = ⟨cw, [a.value, a.min, a.max], []⟩)
    (hexec : exec i s = quantPack Config.qnum fmt (8 * n) a s) : QuantPackRule i cw fmt n a s := by
  refine ⟨hp, fun hfits => ?_, fun hfits => ?_⟩
  · obtain ⟨q, k, hcode, heffect⟩ := quantPack_effect hs hexec hfits
    exact ⟨q, k, hcode, leBytes_eq_specLE n q ▸ heffect⟩
  · rw [hexec, quantPack_eq, packWith_dropped hfits]

theorem quantUnpack_rule {r : QRange} {cw : BitVec 32} (hs : s.legal = true)
    (hp : encode i = ⟨cw, [r.min, r.max], []⟩)
    (hexec : exec i s = quantUnpack Config.qnum fmt (8 * n) r s) :
    QuantUnpackRule i cw fmt n r s := by
  refine ⟨hp, fun hfits => ?_, fun hfits => ?_⟩
  · rw [← fromLE_readBytes]
    exact quantUnpack_effect hs hexec hfits
  · rw [hexec, quantUnpack_eq, unpackWith_under hfits]

end

/-- Settles O37: every QPK is the pack template with the settled code. -/
theorem quantPacksStoreTheCode : Obligations.QuantPacksStoreTheCode := fun _ _ hs =>
  ⟨quantPack_rule hs (encode_of_opcode 0x41 rfl rfl) rfl,
    quantPack_rule hs (encode_of_opcode 0x42 rfl rfl) rfl,
    quantPack_rule hs (encode_of_opcode 0x43 rfl rfl) rfl,
    quantPack_rule hs (encode_of_opcode 0x44 rfl rfl) rfl,
    quantPack_rule hs (encode_of_opcode 0x61 rfl rfl) rfl,
    quantPack_rule hs (encode_of_opcode 0x62 rfl rfl) rfl,
    quantPack_rule hs (encode_of_opcode 0x63 rfl rfl) rfl,
    quantPack_rule hs (encode_of_opcode 0x64 rfl rfl) rfl,
    quantPack_rule hs (encode_of_opcode 0x65 rfl rfl) rfl,
    quantPack_rule hs (encode_of_opcode 0x66 rfl rfl) rfl,
    quantPack_rule hs (encode_of_opcode 0x67 rfl rfl) rfl⟩

/-- Settles O38: every QUP is the unpack template with the settled value. -/
theorem quantUnpacksAnswerTheValue : Obligations.QuantUnpacksAnswerTheValue := fun _ _ hs =>
  ⟨quantUnpack_rule hs (encode_of_opcode 0x51 rfl rfl) rfl,
    quantUnpack_rule hs (encode_of_opcode 0x52 rfl rfl) rfl,
    quantUnpack_rule hs (encode_of_opcode 0x53 rfl rfl) rfl,
    quantUnpack_rule hs (encode_of_opcode 0x54 rfl rfl) rfl,
    quantUnpack_rule hs (encode_of_opcode 0x71 rfl rfl) rfl,
    quantUnpack_rule hs (encode_of_opcode 0x72 rfl rfl) rfl,
    quantUnpack_rule hs (encode_of_opcode 0x73 rfl rfl) rfl,
    quantUnpack_rule hs (encode_of_opcode 0x74 rfl rfl) rfl,
    quantUnpack_rule hs (encode_of_opcode 0x75 rfl rfl) rfl,
    quantUnpack_rule hs (encode_of_opcode 0x76 rfl rfl) rfl,
    quantUnpack_rule hs (encode_of_opcode 0x77 rfl rfl) rfl⟩

/-! ### Round trips (R202) -/

/-- A round trip whose answer may depend on the draws taken: the unpack's effect is known in the one state that the
pack and the move back lead to. -/
theorem roundTrips_of_rewound {pk up : Instr} {s u : State} {bs : List Byte} {ws : List Op} {l : Nat}
    (hu : Rewound s u bs)
    (hrun : execAll [pk, .reverse (BitVec.ofNat 64 bs.length), up] s = execAll [up] u)
    (hup : UnpackEffect up u bs.length ws l) : RoundTrips pk up bs.length ws s := by
  obtain ⟨t, ht, ⟨hpc, hresponses, -⟩, ⟨hlen, hfpw⟩, -, hcursor, -⟩ := hup
  obtain ⟨hlen', hfpw'⟩ := hu.buffer
  refine ⟨t, hrun.trans (execAll_cons_of_next ht), by rw [hpc, hu.pc], ?_,
    ⟨hlen.trans hlen', hfpw.trans hfpw'⟩, by rw [hcursor, hu.cursor]⟩
  rw [hresponses, hu.responses, List.append_assoc]
  rfl

theorem quantRoundTrips_of_exec {pk up : Instr} {s : State} {fmt : Fmt} {v : Op} {r : QRange}
    (n : Nat) (hs : s.wf = true)
    (hpk : exec pk s = quantPack Config.qnum fmt (8 * n) ⟨v, r.min, r.max⟩ s)
    (hup : ∀ u, exec up u = quantUnpack Config.qnum fmt (8 * n) r u) (hfits : s.fits n = true) :
    QuantRoundTrips pk up fmt n v r s := by
  obtain ⟨q, k, hcode, hstored⟩ := quantPack_effect hs hpk hfits
  obtain ⟨u, hu, hrun⟩ := pack_then_reverse hstored [up]
  obtain ⟨w, l, hanswer, heffect⟩ :=
    quantUnpack_effect (hu.legal (legal_of_wf hs)) (hup u) (hu.fits hfits)
  have hlen := leBytes_length n q
  have hbytes := hu.bytes
  rw [hlen] at hbytes
  rw [hbytes, fromLE_leBytes_code hcode.lt] at hanswer
  have htrip := roundTrips_of_rewound hu hrun (ws := [w]) (l := l) (by rwa [hlen])
  rw [hlen] at htrip
  exact ⟨q, k, w, l, hcode, hanswer, htrip⟩

/-- Settles O39: the unpack reads the code that the pack stored. -/
theorem quantRoundTrip : Obligations.QuantRoundTrip := by
  intro v r s hs
  exact ⟨quantRoundTrips_of_exec 1 hs rfl fun _ => rfl, quantRoundTrips_of_exec 2 hs rfl fun _ => rfl,
    quantRoundTrips_of_exec 3 hs rfl fun _ => rfl, quantRoundTrips_of_exec 4 hs rfl fun _ => rfl,
    quantRoundTrips_of_exec 1 hs rfl fun _ => rfl, quantRoundTrips_of_exec 2 hs rfl fun _ => rfl,
    quantRoundTrips_of_exec 3 hs rfl fun _ => rfl, quantRoundTrips_of_exec 4 hs rfl fun _ => rfl,
    quantRoundTrips_of_exec 5 hs rfl fun _ => rfl, quantRoundTrips_of_exec 6 hs rfl fun _ => rfl,
    quantRoundTrips_of_exec 7 hs rfl fun _ => rfl⟩

end Sys2Proof.Machine
end

section
/-! The shared word of a bit-pack command (44_bitpack.md R211): assembly is a sum over disjoint places, and extraction
inverts it. -/

namespace Sys2Proof.Machine

theorem totalWidth_cons {α : Type} (f : Nat × α) (fields : List (Nat × α)) :
    totalWidth (f :: fields) = f.1 + totalWidth fields := rfl

/-- The width of a layout does not depend on what its fields carry. -/
theorem totalWidth_map {α β : Type} (g : Nat × α → β) (fields : List (Nat × α)) :
    totalWidth (fields.map fun f => (f.1, g f)) = totalWidth fields := by
  induction fields with
  | nil => rfl
  | cons f fields ih => rw [List.map_cons, totalWidth_cons, totalWidth_cons, ih]

theorem widths_map {α β : Type} (g : Nat × α → β) (fields : List (Nat × α)) :
    (fields.map fun f => (f.1, g f)).map Prod.fst = fields.map Prod.fst := by
  rw [List.map_map]
  rfl

theorem totalWidth_zip {α : Type} {fields : List (Nat × α)} {qs : List Nat}
    (hlen : fields.length = qs.length) :
    totalWidth ((fields.map Prod.fst).zip qs) = totalWidth fields := by
  induction fields generalizing qs with
  | nil => rfl
  | cons f fields ih =>
    cases qs with
    | nil => cases hlen
    | cons q qs => exact congrArg (f.1 + ·) (ih (Nat.succ.inj hlen))

theorem extract_cons {α : Type} (word : Nat) (f : Nat × α) (fields : List (Nat × α)) :
    extract word (f :: fields) =
      (f.1, word >>> totalWidth fields % 2 ^ f.1, f.2) :: extract word fields := rfl

/-! ### Assembly as a sum -/

/-- Each code is a number of its field's width. -/
def CodesFit {α : Type} (fields : List (Nat × α)) (qs : List Nat) : Prop :=
  List.Forall₂ (fun f q => q < 2 ^ f.1) fields qs

section
variable {α : Type} {fields : List (Nat × α)} {qs : List Nat}

theorem assemble_zip_cons (f : Nat × α) (fields : List (Nat × α)) (q : Nat) (qs : List Nat) :
    assemble (((f :: fields).map Prod.fst).zip (q :: qs)) =
      q <<< totalWidth ((fields.map Prod.fst).zip qs) ||| assemble ((fields.map Prod.fst).zip qs) :=
  rfl

/-- Codes of their fields' widths do not overlap: the bits of the fields below stay under the field's own. -/
theorem assemble_lt (hfit : CodesFit fields qs) :
    assemble ((fields.map Prod.fst).zip qs) < 2 ^ totalWidth fields := by
  induction hfit with
  | nil => exact Nat.one_pos
  | @cons f q fields qs hq hfit ih =>
    rw [assemble_zip_cons]
    refine Nat.or_lt_two_pow ?_ (ih.trans_le (Nat.pow_le_pow_right (by decide) (Nat.le_add_left _ _)))
    rw [totalWidth_zip hfit.length_eq, Nat.shiftLeft_eq, totalWidth_cons, Nat.pow_add]
    exact Nat.mul_lt_mul_of_pos_right hq (Nat.two_pow_pos _)

theorem assemble_cons (f : Nat × α) (q : Nat) (hfit : CodesFit fields qs) :
    assemble (((f :: fields).map Prod.fst).zip (q :: qs)) =
      q * 2 ^ totalWidth fields + assemble ((fields.map Prod.fst).zip qs) := by
  rw [assemble_zip_cons, totalWidth_zip hfit.length_eq, ← Nat.shiftLeft_eq,
    Nat.shiftLeft_add_eq_or_of_lt (assemble_lt hfit)]

/-- Extraction gives each field its own code, whatever stands above the word's fields and whatever is carried
beside the codes. -/
theorem extract_assemble_above {β : Type} (g : Nat × α → β) (hfit : CodesFit fields qs) (above : Nat) :
    extract (above * 2 ^ totalWidth fields + assemble ((fields.map Prod.fst).zip qs))
        (fields.map fun f => (f.1, g f)) =
      (fields.zip qs).map fun f => (f.1.1, f.2, g f.1) := by
  induction hfit generalizing above with
  | nil => rfl
  | @cons f q fields qs hq hfit ih =>
    have hword : above * 2 ^ totalWidth (f :: fields) +
          assemble (((f :: fields).map Prod.fst).zip (q :: qs)) =
        (above * 2 ^ f.1 + q) * 2 ^ totalWidth fields + assemble ((fields.map Prod.fst).zip qs) := by
      rw [assemble_cons f q hfit, totalWidth_cons, Nat.pow_add]
      ring
    have hcut : ((above * 2 ^ f.1 + q) * 2 ^ totalWidth fields +
        assemble ((fields.map Prod.fst).zip qs)) >>> totalWidth fields % 2 ^ f.1 = q := by
      rw [Nat.shiftRight_eq_div_pow, Nat.mul_comm, Nat.mul_add_div (Nat.two_pow_pos _),
        Nat.div_eq_of_lt (assemble_lt hfit), Nat.add_zero, Nat.mul_add_mod_self_right,
        Nat.mod_eq_of_lt hq]
    rw [hword, List.map_cons, extract_cons, totalWidth_map, hcut, ih]
    rfl

/-- The extraction of R211 undoes the assembly (R228). -/
theorem extract_assemble {β : Type} (g : Nat × α → β) (hfit : CodesFit fields qs) :
    extract (assemble ((fields.map Prod.fst).zip qs)) (fields.map fun f => (f.1, g f)) =
      (fields.zip qs).map fun f => (f.1.1, f.2, g f.1) := by
  have h := extract_assemble_above g hfit 0
  rwa [Nat.zero_mul, Nat.zero_add] at h

end

/-- Settles O50: extraction undoes assembly with each field's own code as what it carries. -/
theorem fieldExtractionInvertsAssembly : Obligations.FieldExtractionInvertsAssembly := by
  intro fs hfs
  have hfit : CodesFit fs (fs.map Prod.snd) :=
    List.forall₂_map_right_iff.2 (List.forall₂_same.2 hfs)
  have hzip : (fs.map Prod.fst).zip (fs.map Prod.snd) = fs := by rw [List.zip_map', List.map_id']
  have hpair : fs.zip (fs.map Prod.snd) = fs.map fun f => (f, f.2) := by
    have h := List.zip_map' (f := id) (g := Prod.snd) (l := fs)
    rwa [List.map_id] at h
  have hlt := assemble_lt hfit
  have hextract := extract_assemble Prod.snd hfit
  rw [hzip] at hlt hextract
  rw [hpair, List.map_map, List.map_id'] at hextract
  exact ⟨hlt, hextract⟩

end Sys2Proof.Machine
end

section
/-! The bit-pack commands (44_bitpack.md R212 to R228): the packs, the unpacks and their round trips. -/

namespace Sys2Proof.Machine

/-! ### Settled codes and answers of several fields (R212) -/

/-- The settled codes, beside their widths, are the codes of the rules or draws. -/
theorem fieldCodes_settleCodes (fields : List (Nat × QArg)) (k : Nat) :
    ∃ qs j, FieldCodes fields qs j ∧
      settleCodes (fields.map fun f => (f.1, codeOf .S f.1 f.2)) k =
        ((fields.map Prod.fst).zip qs, k + j) := by
  induction fields generalizing k with
  | nil => exact ⟨[], 0, ⟨rfl, rfl⟩, rfl⟩
  | cons f fields ih =>
    obtain ⟨j, hcode, hdraws⟩ := fieldCode_settleCode .S f.1 f.2 k
    obtain ⟨qs, j', hcodes, htail⟩ := ih (k + j)
    refine ⟨_ :: qs, j + j', ⟨_, qs, j, j', rfl, rfl, hcode, hcodes⟩, ?_⟩
    rw [List.map_cons, settleCodes, hdraws, htail, Nat.add_assoc]
    rfl

theorem FieldCodes.codesFit {fields : List (Nat × QArg)} {qs : List Nat} {k : Nat}
    (h : FieldCodes fields qs k) : CodesFit fields qs := by
  induction fields generalizing qs k with
  | nil =>
    obtain ⟨rfl, -⟩ := h
    exact .nil
  | cons f fields ih =>
    obtain ⟨q, qs', k1, k2, rfl, -, hcode, hcodes⟩ := h
    exact .cons hcode.lt (ih hcodes)

/-- The settled answers are the patterns of the rules' values, NaN patterns or draws. -/
theorem fieldAnswers_settleValues (fields : List (Nat × Nat × QRange)) (k : Nat) :
    ∃ ws j, FieldAnswers fields ws j ∧
      settleValues Config.qnum .S (fields.map fun f => valueOf .S f.1 f.2.1 f.2.2) k =
        (ws, k + j) := by
  induction fields generalizing k with
  | nil => exact ⟨[], 0, ⟨rfl, rfl⟩, rfl⟩
  | cons f fields ih =>
    obtain ⟨j, hanswer, hdraws⟩ := fieldAnswer_settleValue .S (valueOf .S f.1 f.2.1 f.2.2) k
    obtain ⟨ws, j', hanswers, htail⟩ := ih (k + j)
    refine ⟨_ :: ws, j + j', ⟨_, ws, j, j', rfl, rfl, hanswer, hanswers⟩, ?_⟩
    rw [List.map_cons, settleValues, hdraws, htail, Nat.add_assoc]

/-! ### One access (R213) -/

section
variable {i : Instr} {n : Nat} {s : State}

theorem bitPack_eq {fields : List (Nat × QArg)} (hw : totalWidth fields = 8 * n) (s : State) :
    bitPack Config.qnum fields s = s.packWith n (bitBytes Config.qnum fields) := by
  obtain rfl : totalWidth fields / 8 = n := by omega
  rfl

theorem bitUnpack_eq {fields : List (Nat × QRange)} (hw : totalWidth fields = 8 * n) (s : State) :
    bitUnpack Config.qnum fields s = s.unpackWith n (fun bs => settleValues Config.qnum .S
      ((extract (fromBE bs) fields).map fun f => valueOf .S f.1 f.2.1 f.2.2)) (fields.map fun _ => 0) := by
  rw [bitUnpack, hw, Nat.mul_div_cancel_left n (by decide)]

/-- A bit-pack that fits stores the word assembled from the codes. -/
theorem bitPack_effect {fields : List (Nat × QArg)} (hs : s.wf = true)
    (hw : totalWidth fields = 8 * n) (hexec : exec i s = bitPack Config.qnum fields s)
    (hfits : s.fits n = true) :
    ∃ qs k, FieldCodes fields qs k ∧
      PackEffect i s (beBytes n (assemble ((fields.map Prod.fst).zip qs))) k := by
  obtain ⟨qs, k, hcodes, hsettle⟩ := fieldCodes_settleCodes fields s.draws
  have hbytes : bitBytes Config.qnum fields s.draws =
      (beBytes n (assemble ((fields.map Prod.fst).zip qs)), s.draws + k) := by
    rw [bitBytes, hsettle, hw, Nat.mul_div_cancel_left n (by decide)]
  exact ⟨qs, k, hcodes,
    packEffect_of_packWith hs hfits (hexec.trans (bitPack_eq hw s)) hbytes (beBytes_length _ _)⟩

/-- A bit-unpack that fits answers the values of the codes cut out of the word at the cursor. -/
theorem bitUnpack_effect {fields : List (Nat × QRange)} (hs : s.legal = true)
    (hw : totalWidth fields = 8 * n) (hexec : exec i s = bitUnpack Config.qnum fields s)
    (hfits : s.fits n = true) :
    ∃ ws k, FieldAnswers (extract (fromBE (s.mem.readBytes s.cursor.toNat n)) fields) ws k ∧
      UnpackEffect i s n ws k := by
  obtain ⟨ws, k, hanswers, hsettle⟩ := fieldAnswers_settleValues
    (extract (fromBE (s.mem.readBytes s.cursor.toNat n)) fields) s.draws
  exact ⟨ws, k, hanswers,
    unpackEffect_of_unpackWith hs hfits (hexec.trans (bitUnpack_eq hw s)) hsettle⟩

/-- The codes of a layout, each beside its width, are found again by their places. -/
theorem zip_codes_eq_mapIdx {α : Type} {fields : List (Nat × α)} {qs : List Nat}
    (hlen : fields.length = qs.length) :
    (fields.map Prod.fst).zip qs = fields.mapIdx fun j f => (f.1, qs.getD j 0) := by
  refine List.ext_getElem (by simp [hlen]) fun j _ hj => ?_
  rw [List.length_mapIdx, hlen] at hj
  simp [hj]

theorem bitPack_rule {cw : BitVec 32} {fields : List (Nat × QArg)} {word : (Nat → Nat) → Nat}
    (hs : s.wf = true) (hexec : exec i s = bitPack Config.qnum fields s)
    (hp : encode i = ⟨cw, fields.flatMap fun f => [f.2.value, f.2.min, f.2.max], []⟩)
    (hw : totalWidth fields = 8 * n)
    (hword : ∀ q, assemble (fields.mapIdx fun j f => (f.1, q j)) = word q) :
    BitPackRule i cw n fields word s := by
  refine ⟨hp, fun hfits => ?_, fun hfits => ?_⟩
  · obtain ⟨qs, k, hcodes, heffect⟩ := bitPack_effect hs hw hexec hfits
    rw [beBytes_eq_specBE, zip_codes_eq_mapIdx hcodes.codesFit.length_eq, hword] at heffect
    exact ⟨qs, k, hcodes, heffect⟩
  · rw [hexec, bitPack_eq hw, packWith_dropped hfits]

theorem bitUnpack_rule {cw : BitVec 32} {ranges : List (Nat × QRange)}
    {fields : Nat → List (Nat × Nat × QRange)} (hs : s.legal = true)
    (hexec : exec i s = bitUnpack Config.qnum ranges s)
    (hp : encode i = ⟨cw, (fields 0).flatMap fun f => [f.2.2.min, f.2.2.max], []⟩)
    (hw : totalWidth ranges = 8 * n) (hcut : ∀ w, extract w ranges = fields w) :
    BitUnpackRule i cw n fields s := by
  refine ⟨hp, fun hfits => ?_, fun hfits => ?_⟩
  · rw [← hcut, ← fromBE_readBytes]
    exact bitUnpack_effect hs hw hexec hfits
  · rw [hexec, bitUnpack_eq hw, unpackWith_under hfits, ← hcut, extract_length, List.map_const']

end

/-! ### The words of the layouts (R214 to R220) -/

theorem assemble_two (w0 w1 q0 q1 : Nat) : assemble [(w0, q0), (w1, q1)] = q0 <<< w1 ||| q1 := by
  simp [assemble, totalWidth]

theorem assemble_three (w0 w1 w2 q0 q1 q2 : Nat) :
    assemble [(w0, q0), (w1, q1), (w2, q2)] = q0 <<< (w1 + w2) ||| q1 <<< w2 ||| q2 := by
  simp [assemble, totalWidth, Nat.or_assoc]

theorem assemble_four (w0 w1 w2 w3 q0 q1 q2 q3 : Nat) :
    assemble [(w0, q0), (w1, q1), (w2, q2), (w3, q3)] =
      q0 <<< (w1 + (w2 + w3)) ||| q1 <<< (w2 + w3) ||| q2 <<< w3 ||| q3 := by
  simp [assemble, totalWidth, Nat.or_assoc]

/-- Settles O48: every BPK is the pack template with the word assembled from the settled codes. -/
theorem bitPacksStoreTheWord : Obligations.BitPacksStoreTheWord := fun _ _ _ _ _ hs =>
  ⟨bitPack_rule hs rfl (encode_of_opcode 0x80 rfl rfl) rfl fun _ => assemble_two ..,
    bitPack_rule hs rfl (encode_of_opcode 0x81 rfl rfl) rfl fun _ => assemble_two ..,
    bitPack_rule hs rfl (encode_of_opcode 0x82 rfl rfl) rfl fun _ => assemble_two ..,
    bitPack_rule hs rfl (encode_of_opcode 0x83 rfl rfl) rfl fun _ => assemble_three ..,
    bitPack_rule hs rfl (encode_of_opcode 0x84 rfl rfl) rfl fun _ => assemble_three ..,
    bitPack_rule hs rfl (encode_of_opcode 0x85 rfl rfl) rfl fun _ => assemble_four ..,
    bitPack_rule hs rfl (encode_of_opcode 0x86 rfl rfl) rfl fun _ => assemble_four ..⟩

/-- Settles O49: every BUP is the unpack template with the settled values, and the rules' shifts and masks are the
extraction from the layout. -/
theorem bitUnpacksAnswerTheFields : Obligations.BitUnpacksAnswerTheFields := fun _ _ _ _ _ hs =>
  ⟨bitUnpack_rule hs rfl (encode_of_opcode 0x90 rfl rfl) rfl fun _ => rfl,
    bitUnpack_rule hs rfl (encode_of_opcode 0x91 rfl rfl) rfl fun _ => rfl,
    bitUnpack_rule hs rfl (encode_of_opcode 0x92 rfl rfl) rfl fun _ => rfl,
    bitUnpack_rule hs rfl (encode_of_opcode 0x93 rfl rfl) rfl fun _ => rfl,
    bitUnpack_rule hs rfl (encode_of_opcode 0x94 rfl rfl) rfl fun _ => rfl,
    bitUnpack_rule hs rfl (encode_of_opcode 0x95 rfl rfl) rfl fun _ => rfl,
    bitUnpack_rule hs rfl (encode_of_opcode 0x96 rfl rfl) rfl fun _ => rfl⟩

/-! ### Round trips (R228) -/

/-- A word of `8n` bits is read back from its `n` bytes. -/
theorem fromBE_beBytes_word {n q : Nat} (hq : q < 2 ^ (8 * n)) : fromBE (beBytes n q) = q := by
  rw [fromBE_beBytes, Nat.mod_eq_of_lt (by rwa [Nat.pow_mul] at hq)]

theorem bitRoundTrips_of_exec {pk up : Instr} {s : State} {n : Nat}
    (fields : List (Nat × Op × QRange)) (hs : s.wf = true) (hw : totalWidth fields = 8 * n)
    (hpk : exec pk s = bitPack Config.qnum
      (fields.map fun f => (f.1, ⟨f.2.1, f.2.2.min, f.2.2.max⟩)) s)
    (hup : ∀ u, exec up u = bitUnpack Config.qnum (fields.map fun f => (f.1, f.2.2)) u)
    (hfits : s.fits n = true) : BitRoundTrips pk up n fields s := by
  obtain ⟨qs, k, hcodes, hstored⟩ := bitPack_effect hs ((totalWidth_map _ _).trans hw) hpk hfits
  rw [widths_map] at hstored
  have hfit : CodesFit fields qs := List.forall₂_map_left_iff.1 hcodes.codesFit
  obtain ⟨u, hu, hrun⟩ := pack_then_reverse hstored [up]
  obtain ⟨ws, l, hanswers, heffect⟩ := bitUnpack_effect (hu.legal (legal_of_wf hs))
    ((totalWidth_map _ _).trans hw) (hup u) (hu.fits hfits)
  have hlen := beBytes_length n (assemble ((fields.map Prod.fst).zip qs))
  have hbytes := hu.bytes
  rw [hlen] at hbytes
  rw [hbytes, fromBE_beBytes_word (hw ▸ assemble_lt hfit), extract_assemble _ hfit] at hanswers
  have htrip := roundTrips_of_rewound hu hrun (ws := ws) (l := l) (by rwa [hlen])
  rw [hlen] at htrip
  exact ⟨qs, k, ws, l, hcodes, hanswers, htrip⟩

/-- Settles O51: the unpack cuts out of the stored word the codes that the pack assembled. -/
theorem bitPackRoundTrip : Obligations.BitPackRoundTrip := by
  intro va vb vc vd a b c d s hs
  exact ⟨bitRoundTrips_of_exec _ hs rfl rfl fun _ => rfl, bitRoundTrips_of_exec _ hs rfl rfl fun _ => rfl,
    bitRoundTrips_of_exec _ hs rfl rfl fun _ => rfl, bitRoundTrips_of_exec _ hs rfl rfl fun _ => rfl,
    bitRoundTrips_of_exec _ hs rfl rfl fun _ => rfl, bitRoundTrips_of_exec _ hs rfl rfl fun _ => rfl,
    bitRoundTrips_of_exec _ hs rfl rfl fun _ => rfl⟩

end Sys2Proof.Machine
end

section
/-! The composite codec (45_composite.md R240 to R252): sequences of packs and unpacks at one cursor, and `NORMQ` of
what an under-read answers. -/

namespace Sys2Proof.Machine

/-! ### Accesses one after another (R240) -/

/-- After `m` bytes inside the buffer, `n` more fit exactly where `m + n` fitted before them. -/
theorem fits_of_moved {s t : State} {m : Nat} (hbuffer : SameBuffer s t)
    (hcursor : t.cursor.toNat = s.cursor.toNat + m) (hfits : s.fits m = true) (n : Nat) :
    t.fits n = s.fits (m + n) := by
  obtain ⟨hlen, hfpw⟩ := hbuffer
  obtain ⟨hstart, -⟩ := (State.fits_iff m s).1 hfits
  rw [Bool.eq_iff_iff, State.fits_iff, State.fits_iff, State.backing, State.backing, hlen, hfpw, hcursor]
  omega

theorem Stores.append {s t u : State} {a : Nat} {bs cs : List Byte} (h : Stores s t a bs)
    (h' : Stores t u (a + bs.length) cs) : Stores s u a (bs ++ cs) := by
  intro x
  rw [h' x, h x, List.length_append]
  by_cases hb : x < a + bs.length
  · rw [if_neg (by omega)]
    by_cases ha : a ≤ x
    · rw [if_pos ⟨ha, hb⟩, if_pos (by omega), List.getD_append _ _ _ _ (by omega)]
    · rw [if_neg (by omega), if_neg (by omega)]
  · by_cases hc : x < a + bs.length + cs.length
    · rw [if_pos (by omega), if_pos (by omega), List.getD_append_right _ _ _ _ (by omega), Nat.sub_sub]
    · rw [if_neg (by omega), if_neg (by omega), if_neg (by omega)]

/-- The commands `is` complete one after another with empty responses and lead from `s` to `t`, which
has `bs` at the cursor of `s`, its own cursor after them, and `k` draws more. -/
structure PacksRun (is : List Instr) (s t : State) (bs : List Byte) (k : Nat) : Prop where
  run : ∀ rest, execAll (is ++ rest) s = execAll rest t
  wf : t.wf = true
  responses : t.responses = s.responses ++ List.replicate is.length .done
  buffer : SameBuffer s t
  draws : t.draws = s.draws + k
  cursor : t.cursor.toNat = s.cursor.toNat + bs.length
  stores : Stores s t s.cursor.toNat bs

namespace PacksRun

theorem of_effect {i : Instr} {s : State} {bs : List Byte} {k : Nat} (hs : s.wf = true)
    (h : PackEffect i s bs k) : ∃ t, PacksRun [i] s t bs k := by
  obtain ⟨t, ht, ⟨-, hresponses, -⟩, hbuffer, hdraws, hcursor, hstores⟩ := h
  exact ⟨t, fun _ => execAll_cons_of_next ht, exec_keeps_wf hs ht, hresponses, hbuffer, hdraws, hcursor,
    hstores⟩

/-- A dropped pack stores no byte (20_memory.md R57). -/
theorem of_dropped {i : Instr} {s : State} (hs : s.wf = true) (h : exec i s = .next (s.answer .done)) :
    PacksRun [i] s (s.answer .done) [] 0 where
  run _ := execAll_cons_of_next h
  wf := exec_keeps_wf hs h
  responses := rfl
  buffer := ⟨rfl, rfl⟩
  draws := rfl
  cursor := rfl
  stores _ := (if_neg fun ⟨hstart, hend⟩ => Nat.not_lt.2 hstart hend).symm

theorem append {is js : List Instr} {s t u : State} {bs cs : List Byte} {k l : Nat}
    (h : PacksRun is s t bs k) (h' : PacksRun js t u cs l) :
    PacksRun (is ++ js) s u (bs ++ cs) (k + l) where
  run rest := by rw [List.append_assoc, h.run, h'.run]
  wf := h'.wf
  responses := by
    rw [h'.responses, h.responses, List.append_assoc, ← List.replicate_add, List.length_append]
  buffer := by
    obtain ⟨hlen, hfpw⟩ := h.buffer
    obtain ⟨hlen', hfpw'⟩ := h'.buffer
    exact ⟨hlen'.trans hlen, hfpw'.trans hfpw⟩
  draws := by rw [h'.draws, h.draws, Nat.add_assoc]
  cursor := by rw [h'.cursor, h.cursor, List.length_append, Nat.add_assoc]
  stores := h.stores.append (h.cursor ▸ h'.stores)

variable {is : List Instr} {s t : State} {bs : List Byte} {k : Nat}

theorem execAll_eq (h : PacksRun is s t bs k) : execAll is s = .next t := by
  have hrun := h.run []
  rwa [List.append_nil] at hrun

/-- Room left after the packs is room beyond their bytes before them. -/
theorem fits (h : PacksRun is s t bs k) (hfits : s.fits bs.length = true) (n : Nat) :
    t.fits n = s.fits (bs.length + n) :=
  fits_of_moved h.buffer h.cursor hfits n

/-- Moving back over the bytes packed ends where the packs began (40_buffer_cursor.md R115). -/
theorem exec_reverse (h : PacksRun is s t bs k) :
    exec (.reverse (BitVec.ofNat 64 bs.length)) t = .next ((t.moveTo s.cursor).answer .done) := by
  have hmove : t.cursor = s.cursor + BitVec.ofNat 32 bs.length := by
    apply BitVec.eq_of_toNat_eq
    rw [h.cursor, BitVec.toNat_add, BitVec.toNat_ofNat, Nat.add_mod_mod, ← h.cursor,
      Nat.mod_eq_of_lt t.cursor.isLt]
  have hback := cursor_add_sub s.cursor bs.length
  rw [← hmove] at hback
  rw [← hback]
  rfl

end PacksRun

/-- The new result words are those of the responses added. -/
theorem newWords_eq {s t : State} {rs : List Response} (h : t.responses = s.responses ++ rs) :
    newWords s t = rs.flatMap Response.res := by
  rw [newWords, h, List.drop_left]

/-! ### Vectors of binary32 patterns (R241) -/

theorem pkF32_effect {s : State} {v : Op} (hs : s.wf = true) (hfits : s.fits 4 = true) :
    PackEffect (.pkF32 v) s (beBytes 4 (lowBytes 4 v)) 0 :=
  packEffect_of_packWith hs hfits rfl rfl rfl

/-- UP_F32 of a packed pattern answers the pattern. -/
theorem upF32_effect {s : State} {v : Op} (hs : s.legal = true) (hfits : s.fits 4 = true)
    (hbytes : s.mem.readBytes s.cursor.toNat 4 = beBytes 4 (lowBytes 4 v)) :
    UnpackEffect .upF32 s 4 [(v.setWidth 32).setWidth 64] 0 :=
  unpackEffect_of_unpackWith hs hfits rfl (by rw [hbytes, zextBE_lowBytes]; rfl)

/-- V2PK.F packs the two patterns one behind the other. -/
theorem v2pkF_run {s : State} {x y : Op} (hs : s.wf = true) (hfits : s.fits 8 = true) :
    ∃ t, PacksRun [.pkF32 x, .pkF32 y] s t
      (beBytes 4 (lowBytes 4 x) ++ beBytes 4 (lowBytes 4 y)) 0 := by
  have hfirst : s.fits 4 = true := fits_of_le (by decide) hfits
  obtain ⟨t, ht⟩ := PacksRun.of_effect hs (pkF32_effect (v := x) hs hfirst)
  obtain ⟨u, hu⟩ := PacksRun.of_effect ht.wf
    (pkF32_effect (v := y) ht.wf ((ht.fits hfirst 4).trans hfits))
  exact ⟨u, ht.append hu⟩

/-- V2UP.F where two packed patterns stand at the cursor. -/
theorem v2upF_run {s : State} {x y : Op} (hs : s.wf = true) (hfits : s.fits 8 = true)
    (hbytes : s.mem.readBytes s.cursor.toNat 8 =
      beBytes 4 (lowBytes 4 x) ++ beBytes 4 (lowBytes 4 y)) :
    ∃ t, execAll [.upF32, .upF32] s = .next t ∧
      t.responses = s.responses ++
        [.word ((x.setWidth 32).setWidth 64), .word ((y.setWidth 32).setWidth 64)] ∧
      SameBuffer s t ∧ t.cursor.toNat = s.cursor.toNat + 8 ∧ t.mem = s.mem := by
  have hfirst : s.fits 4 = true := fits_of_le (by decide) hfits
  rw [Memory.readBytes_add _ _ 4 4] at hbytes
  obtain ⟨hx, hy⟩ := List.append_inj hbytes (by rw [Memory.readBytes_length, beBytes_length])
  obtain ⟨t, ht, ⟨-, hresponses, -⟩, ⟨hlen, hfpw⟩, -, hcursor, hmem⟩ :=
    upF32_effect (legal_of_wf hs) hfirst hx
  rw [← hcursor, ← hmem] at hy
  have hsecond : t.fits 4 = true := (fits_of_moved ⟨hlen, hfpw⟩ hcursor hfirst 4).trans hfits
  obtain ⟨u, hu, ⟨-, hresponses', -⟩, ⟨hlen', hfpw'⟩, -, hcursor', hmem'⟩ :=
    upF32_effect (legal_of_wf (exec_keeps_wf hs ht)) hsecond hy
  refine ⟨u, (execAll_cons_of_next ht).trans (execAll_cons_of_next hu), ?_,
    ⟨hlen'.trans hlen, hfpw'.trans hfpw⟩, by rw [hcursor', hcursor], hmem'.trans hmem⟩
  rw [hresponses', hresponses, List.append_assoc]
  rfl

/-- Settles O52: two packs, the move back over both, and two unpacks of the bytes that they stored. -/
theorem vectorRoundTrip : Obligations.VectorRoundTrip := by
  intro x y s hs
  refine ⟨rfl, rfl, fun hfits => ?_⟩
  obtain ⟨t, ht⟩ := v2pkF_run (x := x) (y := y) hs hfits
  have hreverse := ht.exec_reverse
  have hbytes := ht.stores.readBytes
  rw [List.length_append, beBytes_length, beBytes_length] at hreverse hbytes
  obtain ⟨hlen, hfpw⟩ := ht.buffer
  have hback : ((t.moveTo s.cursor).answer .done).fits 8 = true :=
    (fits_of_moved (s := s) (t := (t.moveTo s.cursor).answer .done) ⟨hlen, hfpw⟩ rfl
      (fits_of_le (Nat.zero_le 8) hfits) 8).trans hfits
  obtain ⟨u, hu, hresponses, ⟨hlen', hfpw'⟩, hcursor, hmem⟩ :=
    v2upF_run (exec_keeps_wf ht.wf hreverse) hback hbytes
  refine ⟨u, (ht.run _).trans ((execAll_cons_of_next hreverse).trans hu), ?_, hcursor,
    ⟨hlen'.trans hlen, hfpw'.trans hfpw⟩, fun a => ?_⟩
  · rw [State.answer_responses, State.moveTo_responses, ht.responses, List.append_assoc,
      List.append_assoc] at hresponses
    exact newWords_eq hresponses
  · have hstores := ht.stores a
    rw [beBytes_lowBytes, beBytes_lowBytes] at hstores
    rw [hmem]
    exact hstores

/-! ### Quantized vectors (R242, R244, R252) -/

/-- How many bytes a component of a tier takes (R240). -/
def Tier.bytes : Tier → Nat
  | .t8 => 1
  | .t16 => 2
  | .t24 => 3

theorem Tier.bytes_pos (n : Tier) : 1 ≤ n.bytes := by cases n <;> decide

theorem exec_qpk (n : Tier) (v lo hi : Op) (s : State) :
    exec (n.qpk v lo hi) s = quantPack Config.qnum .S (8 * n.bytes) ⟨v, lo, hi⟩ s := by
  cases n <;> rfl

theorem exec_qup (n : Tier) (lo hi : Op) (s : State) :
    exec (n.qup lo hi) s = quantUnpack Config.qnum .S (8 * n.bytes) ⟨lo, hi⟩ s := by
  cases n <;> rfl

/-- A component that fits is packed as its code. -/
theorem qpk_run {n : Tier} {s : State} (v lo hi : Op) (hs : s.wf = true)
    (hfits : s.fits n.bytes = true) :
    ∃ t q k, FieldCode (8 * n.bytes) (codeOf .S (8 * n.bytes) ⟨v, lo, hi⟩) q k ∧
      PacksRun [n.qpk v lo hi] s t (specLE n.bytes q) k := by
  obtain ⟨q, k, hcode, heffect⟩ := quantPack_effect hs (exec_qpk n v lo hi s) hfits
  rw [leBytes_eq_specLE] at heffect
  obtain ⟨t, ht⟩ := PacksRun.of_effect hs heffect
  exact ⟨t, q, k, hcode, ht⟩

/-- A component that does not fit is dropped. -/
theorem qpk_dropped {n : Tier} {s : State} (v lo hi : Op) (hs : s.wf = true)
    (hfits : s.fits n.bytes = false) : PacksRun [n.qpk v lo hi] s (s.answer .done) [] 0 :=
  PacksRun.of_dropped hs (by rw [exec_qpk, quantPack_eq, packWith_dropped hfits])

theorem specLE_length (n v : Nat) : (specLE n v).length = n := by
  rw [specLE, List.length_map, List.length_range]

/-- Settles O53: x and y are packed, which leaves no room for z. -/
theorem partialCompositePack : Obligations.PartialCompositePack := by
  intro x y z lo hi s hs hfour hsix
  have htwo : s.fits 2 = true := fits_of_le (by decide) hfour
  obtain ⟨t, qx, kx, hcodex, hx⟩ := qpk_run (n := .t16) x lo hi hs htwo
  obtain ⟨u, qy, ky, hcodey, hy⟩ := qpk_run (n := .t16) y lo hi hx.wf ((hx.fits htwo 2).trans hfour)
  have hxy := hx.append hy
  have hrun := hxy.append (qpk_dropped (n := .t16) z lo hi hxy.wf ((hxy.fits hfour 2).trans hsix))
  rw [List.append_nil] at hrun
  exact ⟨_, qx, kx, qy, ky, hrun.execAll_eq, hcodex, hcodey, hrun.responses, hrun.buffer,
    hrun.draws.trans (Nat.add_assoc s.draws kx ky).symm, hrun.cursor, hrun.stores⟩

/-! ### Under-read quaternions (R247, R248, R250, R251) -/

/-- Commands that all under-read leave the cursor and answer a zero value each (20_memory.md R58). -/
theorem execAll_under {is : List Instr} {n : Nat} {r : Response} {s : State}
    (h : ∀ i ∈ is, ∀ u, u.fits n = false → exec i u = .next (u.answer r)) (hfits : s.fits n = false) :
    ∃ t, execAll is s = .next t ∧ t.cursor = s.cursor ∧
      t.responses = s.responses ++ List.replicate is.length r := by
  induction is generalizing s with
  | nil => exact ⟨s, rfl, rfl, (List.append_nil _).symm⟩
  | cons i is ih =>
    obtain ⟨hi, his⟩ := List.forall_mem_cons.1 h
    obtain ⟨t, ht, hcursor, hresponses⟩ := ih (s := s.answer r) his hfits
    refine ⟨t, (execAll_cons_of_next (hi s hfits)).trans ht, hcursor, ?_⟩
    rw [hresponses, State.answer_responses, List.append_assoc]
    rfl

/-- No component can be read where no byte can. -/
theorem qup_under (n : Tier) (lo hi : Op) {s : State} (hfits : s.fits 1 = false) :
    exec (n.qup lo hi) s = .next (s.answer (.word 0)) := by
  have hnone : s.fits n.bytes = false :=
    Bool.eq_false_iff.2 fun hn => Bool.eq_false_iff.1 hfits (fits_of_le n.bytes_pos hn)
  rw [exec_qup, quantUnpack_eq, unpackWith_under hnone]
  rfl

theorem bup10X4_under (a b c d : QRange) {s : State} (hfits : s.fits 5 = false) :
    exec (.bup10X4 a b c d) s = .next (s.answer (.words [0, 0, 0, 0])) :=
  (bitUnpack_eq (n := 5) rfl s).trans (unpackWith_under hfits)

/-- `NORMQ` of a quaternion of magnitude zero is the identity, none of whose components is NaN (R251). -/
theorem normqWords_zero (free : Nat → BitVec 64) :
    normqWords Config.qnum free 0 0 0 0 = [0, 0, 0, 0x3F800000] := rfl

/-- What a decode answers that only reads zeros. -/
theorem answers_of_zeros (p : Pseudo) (free : Nat → BitVec 64) {ws : List Op} (h : ws = [0, 0, 0, 0]) :
    p.answers Config.qnum free ws = [0, 0, 0, if p.normalises then 0x3F800000 else 0] := by
  rw [h]
  unfold Pseudo.answers
  cases p.normalises
  case false => rfl
  case true => exact normqWords_zero free

/-- Settles O54: every decode reads four zeros, and `NORMQ` turns them into the identity. -/
theorem quaternionUnderReadGivesIdentity : Obligations.QuaternionUnderReadGivesIdentity := by
  intro n lo hi free s
  constructor
  · intro hfits
    obtain ⟨t, ht, hcursor, hresponses⟩ := execAll_under (is := (Pseudo.qtup n lo hi).expand)
      (fun i hi' u hu => by
        rw [List.eq_of_mem_replicate (n := 4) hi', qup_under n lo hi hu]) hfits
    have hwords : newWords s t = [0, 0, 0, 0] := newWords_eq hresponses
    exact ⟨⟨t, ht, hcursor, answers_of_zeros _ free hwords⟩, t, ht, answers_of_zeros _ free hwords⟩
  · intro hfits
    obtain ⟨t, ht, hcursor, hresponses⟩ := execAll_under (is := (Pseudo.qtup40 lo hi).expand)
      (fun i hi' u hu => by rw [List.eq_of_mem_singleton hi', bup10X4_under _ _ _ _ hu]) hfits
    have hwords : newWords s t = [0, 0, 0, 0] := newWords_eq hresponses
    exact ⟨⟨t, ht, hcursor, answers_of_zeros _ free hwords⟩, t, ht, answers_of_zeros _ free hwords⟩

end Sys2Proof.Machine
end

section
/-! Refusals and the lack of traps (60_exceptions.md R260, R265): a command is refused in every state or in none, and
no other outcome than completion is left in a legal state. -/

namespace Sys2Proof.Machine

/-! ### Commands that are never refused -/

/-- An outcome that is no refusal. -/
def NotRefused (o : Result) : Prop := ∀ c, o ≠ .refused c

namespace NotRefused

theorem next (s : State) : NotRefused (.next s) := nofun

theorem complete (s : State) (r : Response) : NotRefused (s.complete r) := next _

theorem orFault {α : Type} (r : Option α) {k : α → Result} (h : ∀ x, NotRefused (k x)) :
    NotRefused (orFault r k) := by
  cases r with
  | none => exact nofun
  | some x => exact h x

theorem ite {p : Prop} [Decidable p] {a b : Result} (ha : NotRefused a) (hb : NotRefused b) :
    NotRefused (if p then a else b) := by
  split
  · exact ha
  · exact hb

theorem packsBytes {n : Nat} {f : State → Result} (h : PacksBytes n f) (s : State) :
    NotRefused (f s) := by
  obtain ⟨bytes, -, heq⟩ := h
  rw [heq]
  exact ite (orFault _ fun _ => next _) (complete _ _)

theorem unpacksWords {n : Nat} {zero : List Op} {f : State → Result} (h : UnpacksWords n zero f)
    (s : State) : NotRefused (f s) := by
  obtain ⟨dec, -, heq⟩ := h
  rw [heq]
  exact ite (orFault _ fun _ => next _) (complete _ _)

theorem execUpBlob (s : State) : NotRefused (execUpBlob s) :=
  ite (orFault _ fun _ => ite (orFault _ fun _ => complete _ _) (complete _ _)) (complete _ _)

theorem execDump (s : State) : NotRefused (execDump s) := orFault _ fun _ => complete _ _

theorem execFpGen (s : State) : NotRefused (execFpGen s) :=
  ite (complete _ _) (orFault _ fun _ => orFault _ fun _ => complete _ _)

theorem execFpGet (s : State) : NotRefused (execFpGet s) :=
  ite (complete _ _) (orFault _ fun _ => complete _ _)

theorem execFpChk (s : State) : NotRefused (execFpChk s) :=
  ite (complete _ _) (orFault _ fun _ => orFault _ fun _ => complete _ _)

end NotRefused

/-- A command is refused with one cause in every state, or in no state at all, legal or not (R265). -/
theorem exec_refused_or_never (i : Instr) :
    (∃ c, ∀ s, exec i s = .refused (.packet c)) ∨ ∀ s, NotRefused (exec i s) := by
  cases commandRole i with
  | refused c _ h => exact .inl ⟨c, h⟩
  | packs _ _ _ h => exact .inr (.packsBytes h)
  | unpacks _ _ h => exact .inr (.unpacksWords h)
  | builds _ _ _ h =>
    obtain ⟨_, _, -, -, heq⟩ := h
    exact .inr fun s => heq s ▸ .next _
  | moves _ c _ h => exact .inr fun s => h s ▸ .complete _ _
  | upBlob => exact .inr .execUpBlob
  | rdcsr r => exact .inr fun s => .complete s _
  | dump => exact .inr .execDump
  | fpGen => exact .inr .execFpGen
  | fpGet => exact .inr .execFpGet
  | fpChk => exact .inr .execFpChk

/-- Only CONSTRUCT, ADOPT and PK_BLOB have ill-formed terms, and their checks read no state (R265). -/
theorem exec_refused_of_not_wf {i : Instr} (hw : i.wf = false) :
    ∃ c, ∀ s, exec i s = .refused (.packet c) := by
  cases i
  case construct => exact construct_refused hw
  case adopt => exact adopt_refused hw
  case pkBlob => exact pkBlob_refused hw
  all_goals exact Bool.noConfusion hw

theorem completes_iff_wf {i : Instr} {s : State} (hs : s.legal = true) :
    Completes i s ↔ i.wf = true := by
  refine ⟨fun ⟨t, ht⟩ => ?_, exec_completes hs⟩
  by_contra hw
  obtain ⟨c, hc⟩ := exec_refused_of_not_wf (Bool.eq_false_iff.2 hw)
  cases (hc s).symm.trans ht

/-- Settles O7: a command that is refused once is of the kind that is refused everywhere. -/
theorem refusalDependsOnThePacketAlone : Obligations.RefusalDependsOnThePacketAlone := by
  intro i s
  refine ⟨completes_iff_wf, exec_refused_of_not_wf, fun c hc u => ?_⟩
  rcases exec_refused_or_never i with ⟨c', h⟩ | h
  · rw [h u, ← hc, h s]
  · exact absurd hc (h s c)

/-! ### No trap (R260) -/

theorem exec_noFault {i : Instr} {s : State} (hs : s.legal = true) : NoFault (exec i s) := by
  cases hw : i.wf
  · obtain ⟨c, hc⟩ := exec_refused_of_not_wf hw
    exact hc s ▸ nofun
  · obtain ⟨t, ht⟩ := exec_completes hs hw
    exact ht ▸ nofun

/-- Settles O12: a step waits, refuses the packet, or executes a command. -/
theorem noStepFaults : Obligations.NoStepFaults := by
  intro s hs
  cases hp : s.commands[s.pc]? with
  | none => exact step_of_none hp ▸ nofun
  | some p =>
    cases hd : decode p with
    | error c => exact step_of_error hp hd ▸ nofun
    | ok i => exact step_of_ok hp hd ▸ exec_noFault hs

/-! ### Accesses that do not fit (R261, R262) -/

/-- The commands that make a buffer or set the cursor have no width in the table (20_memory.md R59). -/
theorem accessBytes_eq_none {i : Instr} (hi : isBuild i = true ∨ isCursor i = true) :
    accessBytes i = none := by
  cases i
  case construct | adopt | seekStart | seekTo | advance | reverse => rfl
  all_goals simp [isBuild, isCursor] at hi

/-- Either template leaves the state as it is where its bytes do not fit. -/
theorem exec_of_not_fits {i : Instr} {s : State} {n : Nat} (hw : i.wf = true)
    (hn : accessBytes i = some n) (hfits : s.fits n = false) :
    exec i s = .next (s.answer ⟨0, List.replicate (resultWords i) 0, []⟩) := by
  cases commandRole i with
  | refused _ hw' => exact Bool.noConfusion (hw'.symm.trans hw)
  | packs _ hn' hr h =>
    obtain rfl : _ = n := Option.some.inj (hn'.symm.trans hn)
    obtain ⟨bytes, -, heq⟩ := h
    rw [heq, packWith_dropped hfits, hr]
    rfl
  | unpacks _ hn' h =>
    obtain rfl : _ = n := Option.some.inj (hn'.symm.trans hn)
    obtain ⟨dec, -, heq⟩ := h
    rw [heq, unpackWith_under hfits]
    rfl
  | builds hi => cases (accessBytes_eq_none (.inl hi)).symm.trans hn
  | moves hi => cases (accessBytes_eq_none (.inr hi)).symm.trans hn
  | upBlob | rdcsr | dump | fpGen | fpGet | fpChk => cases hn

/-- Settles O19: the two templates, and the two checks of UP_BLOB. -/
theorem accessThatDoesNotFitChangesNothing : Obligations.AccessThatDoesNotFitChangesNothing :=
  ⟨fun _ _ _ => exec_of_not_fits, fun _ => exec_upBlob_of_no_length,
    fun _ => exec_upBlob_of_no_body⟩

/-! ### A refusal at the port (R266) -/

/-- The headers of the refusal responses as R266 writes them. -/
theorem refusalHeader_mem (c : Cause) :
    (c, (refusalResponse c).rh) ∈ [(Cause.illegalOpcode, (0x80000001 : BitVec 32)),
      (.reservedBits, 0x80000002), (.badPacket, 0x80000003), (.illegalFpw, 0x80000004),
      (.tooLarge, 0x80000005), (.badLength, 0x80000006)] := by
  cases c <;> decide

theorem serve_of_refused {s : State} {c : Cause} (h : step s = .refused (.packet c)) :
    serve s = .next (s.dismiss c) := by
  simp only [serve, h]

/-- With the refused packet dropped, the packet at `pc` is the one that followed it. -/
theorem dismiss_next_packet (c : Cause) (s : State) :
    (s.dismiss c).commands[(s.dismiss c).pc]? = s.commands[s.pc + 1]? := by
  rw [State.dismiss_commands, State.dismiss_pc, List.getElem?_eraseIdx_of_ge le_rfl]

/-- Settles O20: either way the step is a refusal, and the port dismisses the packet. -/
theorem serveAnswersARefusal : Obligations.ServeAnswersARefusal := by
  intro s p c hp hrefused
  have hstep : step s = .refused (.packet c) := by
    rcases hrefused with hd | ⟨i, hd, hexec⟩
    · exact step_of_error hp hd
    · exact (step_of_ok hp hd).trans hexec
  exact ⟨_, refusalHeader_mem c, hstep, s.dismiss c, serve_of_refused hstep, rfl, rfl, rfl, rfl, rfl,
    rfl, rfl, dismiss_next_packet c s⟩

end Sys2Proof.Machine
end

section
/-! The order of the checks (60_exceptions.md R267, steps 1 to 7): the decoder's three over the packet's shape, and the
operand checks of CONSTRUCT, ADOPT and PK_BLOB. -/

namespace Sys2Proof.Machine

/-! ### The decoder's checks over the opcode alone (R81, R82, R88) -/

theorem rowOf_eq_none {b : BitVec 8} (h : opcodeLegal b = false) : rowOf b = none := by
  rw [← Option.not_isSome_iff_eq_none, opcodesAreExactlyTheMap, h]
  exact Bool.false_ne_true

theorem exists_rowOf {b : BitVec 8} (h : opcodeLegal b = true) : ∃ r, rowOf b = some r :=
  Option.isSome_iff_exists.1 ((opcodesAreExactlyTheMap b).trans h)

/-- What the ranges of opcodes say of a packet's shape is what the row of the map says. -/
structure RowShape (b : BitVec 8) (format : Format) : Prop where
  operands : operandCount b = format.operands
  data : takesData b = format.hasData
  modZero : format.modZero = if b = 0x01 then 0xF0 else if b = 0x02 then 0xC0 else
    if b = 0x07 then 0xFC else 0xFF

theorem rowShape_of_rowOf {b : BitVec 8} {r : OpcodeRow} (hr : rowOf b = some r) :
    RowShape b r.format := by
  have hrows : ∀ r ∈ opcodeMap, operandCount r.opc = r.format.operands ∧
      takesData r.opc = r.format.hasData ∧ r.format.modZero = if r.opc = 0x01 then 0xF0 else
        if r.opc = 0x02 then 0xC0 else if r.opc = 0x07 then 0xFC else 0xFF := by decide
  obtain rfl : r.opc = b := by simpa using List.find?_some hr
  obtain ⟨hoperands, hdata, hmod⟩ := hrows r (List.mem_of_find?_eq_some hr)
  exact ⟨hoperands, hdata, hmod⟩

/-- The must-be-zero bits of `MOD` as bounds on its value are the bits of the format's mask (R81, R87). -/
theorem RowShape.modReserved_iff {b : BitVec 8} {format : Format} (h : RowShape b format)
    (mod : BitVec 8) : modReserved b mod = true ↔ mod &&& format.modZero ≠ 0 := by
  rw [h.modZero, modReserved]
  split
  · revert mod; decide
  split
  · revert mod; decide
  split
  · revert mod; decide
  · revert mod; decide

section
variable {p : Packet} {r : OpcodeRow}

theorem decode_illegalOpcode (hrow : rowOf p.opc = none) : decode p = .error .illegalOpcode := by
  simp only [decode, hrow]

theorem decode_reservedBits (hrow : rowOf p.opc = some r)
    (hbits : p.zero ≠ 0 ∨ p.mod &&& r.format.modZero ≠ 0) : decode p = .error .reservedBits := by
  have hcheck : (p.zero != 0 || p.mod &&& r.format.modZero != 0) = true := by simpa using hbits
  simp only [decode, hrow, hcheck, if_true]

theorem decode_badPacket (hrow : rowOf p.opc = some r)
    (hbits : ¬ (p.zero ≠ 0 ∨ p.mod &&& r.format.modZero ≠ 0))
    (hshape : p.op.length ≠ r.format.operands ∨ (r.format.hasData = false ∧ p.data ≠ [])) :
    decode p = .error .badPacket := by
  have hcheck : (p.zero != 0 || p.mod &&& r.format.modZero != 0) = false := by simpa using hbits
  have hcheck' : (p.op.length != r.format.operands || (!r.format.hasData && !p.data.isEmpty)) = true := by
    simpa using hshape
  simp only [decode, hrow, hcheck, hcheck', Bool.false_eq_true, if_false, if_true]

theorem decode_ok (hrow : rowOf p.opc = some r)
    (hbits : ¬ (p.zero ≠ 0 ∨ p.mod &&& r.format.modZero ≠ 0))
    (hshape : ¬ (p.op.length ≠ r.format.operands ∨ (r.format.hasData = false ∧ p.data ≠ []))) :
    ∃ i, decode p = .ok i := by
  obtain ⟨hzero, hmod⟩ := not_or.1 hbits
  obtain ⟨hop, hdata⟩ := not_or.1 hshape
  refine ⟨_, decode_of_fits ⟨hrow, not_not.1 hzero, not_not.1 hmod, not_not.1 hop, ?_⟩⟩
  simpa [← Bool.not_eq_true, ← or_iff_not_imp_left] using hdata

end

/-! ### The operand checks (R267, steps 4 to 7) -/

/-- Steps 4 to 7 of R267 as `checkedCause` runs them: over the opcode, `MOD[3:0]`, `MOD[5:4]`, `OP[0]` and the length
of `DATA`. -/
def operandCause (opc : BitVec 8) (f n len : Nat) (kept : Bool) : Option Cause :=
  if (opc = 0x01 ∨ opc = 0x02) ∧ f ∉ [0, 1, 2, 4, 8] then some .illegalFpw
  else if opc = 0x2A ∧ 65535 < n then some .badLength
  else if takesData opc = true ∧ len ≠ n then some .badPacket
  else if opc = 0x01 ∧ Config.memBytes < n + f then some .tooLarge
  else if opc = 0x02 ∧ Config.memBytes < (if kept then n else n + f) then some .tooLarge
  else if opc = 0x02 ∧ kept = true ∧ n < f then some .badLength
  else none

theorem checkedCause_eq (p : Packet) :
    checkedCause p =
      if opcodeLegal p.opc = false then some .illegalOpcode
      else if p.zero ≠ 0 ∨ modReserved p.opc p.mod = true then some .reservedBits
      else if p.op.length ≠ operandCount p.opc ∨ (takesData p.opc = false ∧ p.data ≠ []) then
        some .badPacket
      else operandCause p.opc (p.mod.toNat % 16) (p.op.getD 0 0).toNat p.data.length
        (p.mod.getLsbD 4 || p.mod.getLsbD 5) := rfl

/-- The other commands have no operand check. -/
theorem operandCause_eq_none {opc : BitVec 8} (h : opc ≠ 0x01 ∧ opc ≠ 0x02 ∧ opc ≠ 0x2A)
    (f n len : Nat) (kept : Bool) : operandCause opc f n len kept = none := by
  obtain ⟨hconstruct, hadopt, hblob⟩ := h
  have hdata : takesData opc = false :=
    Bool.or_eq_false_iff.2 ⟨beq_false_of_ne hadopt, beq_false_of_ne hblob⟩
  simp only [operandCause, hconstruct, hadopt, hblob, hdata, Bool.false_eq_true, or_self, false_and,
    if_false]

theorem operandCause_construct (f n len : Nat) (kept : Bool) :
    operandCause 0x01 f n len kept =
      if f ∉ [0, 1, 2, 4, 8] then some .illegalFpw
      else if Config.memBytes < n + f then some .tooLarge
      else none := by
  simp [operandCause, takesData]

theorem operandCause_adopt (f n len : Nat) (kept : Bool) :
    operandCause 0x02 f n len kept =
      if f ∉ [0, 1, 2, 4, 8] then some .illegalFpw
      else if len ≠ n then some .badPacket
      else if Config.memBytes < (if kept then n else n + f) then some .tooLarge
      else if kept = true ∧ n < f then some .badLength
      else none := by
  simp [operandCause, takesData]

theorem operandCause_pkBlob (f n len : Nat) (kept : Bool) :
    operandCause 0x2A f n len kept =
      if 65535 < n then some .badLength else if len ≠ n then some .badPacket else none := by
  simp [operandCause, takesData]

/-! ### The outcome -/

/-- The outcome is what the checks say: the refusal with the cause, or completion where there is none. -/
def AsChecked (cause : Option Cause) (o : Result) : Prop :=
  (∀ c, cause = some c → o = .refused (.packet c)) ∧ (cause = none → ∃ t, o = .next t)

namespace AsChecked

theorem passed {o : Result} (h : ∃ t, o = .next t) : AsChecked none o := ⟨nofun, fun _ => h⟩

/-- One check, and those after it where it passes. -/
theorem check {P : Prop} [Decidable P] {c : Cause} {cause : Option Cause} {o : Result}
    (hfails : P → o = .refused (.packet c)) (hpasses : ¬ P → AsChecked cause o) :
    AsChecked (if P then some c else cause) o := by
  split
  case isTrue hP =>
    obtain rfl := hfails hP
    exact ⟨fun _ hc => Option.some.inj hc ▸ rfl, nofun⟩
  case isFalse hP => exact hpasses hP

variable {s : State} (hs : s.legal = true)
include hs

theorem construct (f : BitVec 4) (n : Op) (len : Nat) (kept : Bool) :
    AsChecked (operandCause 0x01 f.toNat n.toNat len kept) (exec (.construct f n) s) := by
  simp only [operandCause_construct, ← fpwLegal_iff_toNat_mem]
  refine .check (fun hf => exec_construct_illegalFpw n s (Bool.eq_false_iff.2 hf)) fun hf => ?_
  rw [not_not] at hf
  refine .check (exec_construct_tooLarge s hf) fun hsize => ?_
  exact .passed (exec_completes hs (construct_wf_iff.2 ⟨hf, Nat.not_lt.1 hsize⟩))

theorem adopt (f : BitVec 4) (cf sh : Bool) (n : Op) (data : List Byte) :
    AsChecked (operandCause 0x02 f.toNat n.toNat data.length (cf || sh))
      (exec (.adopt f cf sh n data) s) := by
  simp only [operandCause_adopt, ← fpwLegal_iff_toNat_mem]
  refine .check (fun hf => exec_adopt_illegalFpw s (Bool.eq_false_iff.2 hf)) fun hf => ?_
  rw [not_not] at hf
  refine .check (exec_adopt_badPacket s hf) fun hlen => ?_
  rw [not_not] at hlen
  refine .check (exec_adopt_tooLarge s hf hlen) fun hsize => ?_
  replace hsize : adoptRegion f cf sh n ≤ Config.memBytes := Nat.not_lt.1 hsize
  refine .check (fun ⟨hin, hshort⟩ => exec_adopt_badLength s hf hlen hsize hin hshort) fun hshort => ?_
  have hwf : (Instr.adopt f cf sh n data).wf = true :=
    adopt_wf_iff.2 ⟨hf, hlen, hsize, by simpa using hshort⟩
  exact .passed (exec_completes hs hwf)

theorem pkBlob (f : Nat) (n : Op) (data : List Byte) (kept : Bool) :
    AsChecked (operandCause 0x2A f n.toNat data.length kept) (exec (.pkBlob n data) s) := by
  rw [operandCause_pkBlob]
  refine .check (exec_pkBlob_badLength data s) fun hlong => ?_
  replace hlong : n.toNat ≤ maxBlob := Nat.not_lt.1 hlong
  refine .check (exec_pkBlob_badPacket s hlong) fun hlen => ?_
  exact .passed (exec_completes hs (pkBlob_wf_iff.2 ⟨hlong, not_not.1 hlen⟩))

/-- A command is executed as the operand checks over its own packet say. -/
theorem of_exec (i : Instr) :
    AsChecked (operandCause i.opcode (i.modBits.toNat % 16) (i.operands.getD 0 0).toNat
      i.payload.length (i.modBits.getLsbD 4 || i.modBits.getLsbD 5)) (exec i s) := by
  cases i
  case construct f n =>
    have hmod : (f.setWidth 8).toNat % 16 = f.toNat := by revert f; decide
    exact hmod.symm ▸ construct hs f n _ _
  case adopt f cf sh n data =>
    have hmod : (0#2 ++ BitVec.ofBool sh ++ BitVec.ofBool cf ++ f).toNat % 16 = f.toNat ∧
        (0#2 ++ BitVec.ofBool sh ++ BitVec.ofBool cf ++ f).getLsbD 4 = cf ∧
        (0#2 ++ BitVec.ofBool sh ++ BitVec.ofBool cf ++ f).getLsbD 5 = sh := by
      revert f cf sh; decide
    obtain ⟨hf, hcf, hsh⟩ := hmod
    simp only [Instr.modBits, hf, hcf, hsh]
    exact adopt hs f cf sh n data
  case pkBlob n data => exact pkBlob hs _ n data _
  all_goals
    rw [operandCause_eq_none (by simp only [Instr.opcode]; decide)]
    exact .passed (exec_completes hs rfl)

end AsChecked

/-- Settles O6: the decoder runs the first three checks, and what it decodes is the command of the packet itself,
which runs the rest. -/
theorem checksRunInTheStatedOrder : Obligations.ChecksRunInTheStatedOrder := by
  intro s p hs hp
  change AsChecked (checkedCause p) (step s)
  rw [checkedCause_eq]
  refine .check (fun hopc => step_of_error hp (decode_illegalOpcode (rowOf_eq_none hopc))) fun hopc => ?_
  obtain ⟨r, hrow⟩ := exists_rowOf (Bool.eq_true_of_not_eq_false hopc)
  have hshape := rowShape_of_rowOf hrow
  simp only [hshape.modReserved_iff, hshape.operands, hshape.data]
  refine .check (fun hbits => step_of_error hp (decode_reservedBits hrow hbits)) fun hbits => ?_
  refine .check (fun hfields => step_of_error hp (decode_badPacket hrow hbits hfields))
    fun hfields => ?_
  obtain ⟨i, hi⟩ := decode_ok hrow hbits hfields
  obtain rfl : encode i = p := encodeUndoesDecode p i hi
  rw [step_of_ok hp hi, encode_opc, encode_mod]
  exact .of_exec hs i

end Sys2Proof.Machine
end

section
/-! Before any CONSTRUCT or ADOPT (70_reset_and_hazards.md R283): with the three registers at 0 no access fits, and the
other commands answer as their own rules say. -/

namespace Sys2Proof.Machine

/-- The registers are as at reset: a buffer of no bytes, whatever `MEM` holds (70_reset_and_hazards.md R283). -/
structure State.EmptyBuffer (s : State) : Prop where
  len : s.len = 0
  fpw : s.fpw = 0
  cursor : s.cursor = 0

theorem State.reset_emptyBuffer : State.reset.EmptyBuffer := ⟨rfl, rfl, rfl⟩

/-! ### Which accesses there are (20_memory.md R59) -/

/-- Every access but UP_BLOB's has a width, and none is empty: PK_BLOB of no bytes stores its length. -/
theorem accessBytes_pos {i : Instr} (hi : isPack i = true ∨ isUnpack i = true) (hblob : i ≠ .upBlob) :
    ∃ n, accessBytes i = some n ∧ 0 < n := by
  cases i
  case construct | adopt | seekStart | seekTo | advance | reverse | rdcsr | dump | fpGen | fpGet | fpChk =>
    simp [isPack, isUnpack] at hi
  case upBlob => exact absurd rfl hblob
  case pkBlob op0 data => exact ⟨2 + op0.toNat, rfl, by omega⟩
  all_goals exact ⟨_, rfl, by decide⟩

/-- No operand check is an unpack's (60_exceptions.md R267). -/
theorem wf_of_isUnpack {i : Instr} (hi : isUnpack i = true) : i.wf = true := by
  cases i
  case construct | adopt | pkBlob => simp [isUnpack] at hi
  all_goals rfl

theorem resultWords_of_isPack {i : Instr} (hi : isPack i = true) : resultWords i = 0 := by
  cases i
  case pkU8 | pkU16 | pkU32 | pkU64 | pkI8 | pkI16 | pkI32 | pkI64 | pkF32 | pkF64 | pkBlob => rfl
  case qpk8S | qpk16S | qpk24S | qpk32S | qpk8D | qpk16D | qpk24D | qpk32D | qpk40D | qpk48D | qpk56D => rfl
  case bpk71 | bpk62 | bpk44 | bpk655 | bpk111110 | bpk10X4 | bpk1111108 => rfl
  all_goals simp [isPack] at hi

namespace State.EmptyBuffer

variable {s : State} (h : s.EmptyBuffer)
include h

theorem backing_eq_zero : s.backing = 0 := by
  rw [State.backing, h.len, h.fpw]
  rfl

theorem legal : s.legal = true :=
  (legal_iff s).2 ⟨by rw [h.fpw]; rfl, by rw [h.backing_eq_zero]; exact Nat.zero_le _⟩

/-- `Fits(n)` needs `CURSOR + n <= 0` (R283). -/
theorem fits_eq_false {n : Nat} (hn : 0 < n) : s.fits n = false := by
  refine Bool.eq_false_iff.2 fun hfits => ?_
  have hend := ((State.fits_iff n s).1 hfits).2
  rw [h.backing_eq_zero] at hend
  omega

/-- A well-formed access changes nothing and answers zeros. -/
theorem exec_access {i : Instr} (hw : i.wf = true) (hi : isPack i = true ∨ isUnpack i = true) :
    exec i s = .next (s.answer ⟨0, List.replicate (resultWords i) 0, []⟩) := by
  by_cases hblob : i = .upBlob
  · subst hblob
    exact exec_upBlob_of_no_length (h.fits_eq_false Nat.two_pos)
  · obtain ⟨n, hn, hpos⟩ := accessBytes_pos hi hblob
    exact exec_of_not_fits hw hn (h.fits_eq_false hpos)

theorem exec_pack {i : Instr} (hi : isPack i = true) (hw : i.wf = true) :
    exec i s = .next (s.answer .done) := by
  rw [h.exec_access hw (.inl hi), resultWords_of_isPack hi]
  rfl

/-- A fingerprint of no bytes is stored as no bytes. -/
theorem exec_fpGen : exec .fpGen s = .next (s.answer .done) := by
  rw [exec_fpGen_of_legal h.legal, h.fpw]
  rfl

theorem exec_fpGet : exec .fpGet s = .next (s.answer ⟨0, [0], []⟩) := by
  rw [(fpGetAnswersTheStoredPrefix s h.legal).2, h.fpw]
  rfl

theorem exec_dump : exec .dump s = .next (s.answer ⟨0, [0], []⟩) := by
  rw [(dumpAnswersTheWireImage s h.legal).2, h.len, h.fpw]
  rfl

/-- The registers, and `BACKING`, are 0. -/
theorem exec_rdcsr (r : BitVec 2) : exec (.rdcsr r) s = .next (s.answer ⟨0, [0], []⟩) := by
  have hcsr : s.csr r = 0 := by
    simp [State.csr, h.cursor, h.len, h.fpw, h.backing_eq_zero]
  change s.complete (.word (s.csr r)) = _
  rw [hcsr]
  rfl

theorem seek_effect (v : Op) : CursorEffect .seekStart s 0 ∧ CursorEffect (.seekTo v) s 0 := by
  have hfpw : s.fpw.toNat = 0 := congrArg BitVec.toNat h.fpw
  obtain ⟨-, hstart, -, hto, -⟩ := seekCommandsSetTheCursor v s h.legal
  rw [hfpw] at hstart hto
  exact ⟨hstart, hto (.inr h.len)⟩

theorem move_effect (v : Op) : CursorEffect (.advance v) s (v.toNat % 2 ^ 32) ∧
    CursorEffect (.reverse v) s ((2 ^ 32 - v.toNat % 2 ^ 32) % 2 ^ 32) := by
  have hcursor : s.cursor.toNat = 0 := congrArg BitVec.toNat h.cursor
  obtain ⟨-, -, hadvance, hreverse⟩ := advanceAndReverseWrap v s
  rw [hcursor, Nat.zero_add, Nat.mod_mod] at hadvance
  rw [hcursor, Nat.zero_add] at hreverse
  exact ⟨hadvance, hreverse⟩

end State.EmptyBuffer

/-- Settles O11: every access is out of the empty buffer, and the other commands' rules are read at `LEN = 0`,
`FPW = 0` and `CURSOR = 0`. -/
theorem emptyBufferAnswers : Obligations.EmptyBufferAnswers := by
  intro s hlen hfpw hcursor
  have h : s.EmptyBuffer := ⟨hlen, hfpw, hcursor⟩
  exact ⟨fun _ => h.exec_pack, fun _ hi => h.exec_access (wf_of_isUnpack hi) (.inr hi), h.exec_fpGen,
    h.exec_fpGet, exec_fpChk_of_fpw_eq_zero h.legal hfpw, h.exec_dump, h.exec_rdcsr, (h.seek_effect 0).1,
    fun v => (h.seek_effect v).2, fun v => (h.move_effect v).1, fun v => (h.move_effect v).2⟩

end Sys2Proof.Machine
end
